-- ==== Sys2Proof/Word.lean ====
section
/-! DEFINITION. The word types of the PHU: bytes, byte strings and 7-bit ASCII texts. -/
namespace Sys2Proof

/-- One byte of BUF, TMPL or TXT (10_state.md R30, R34, R37). -/
abbrev Byte := BitVec 8

/-- A list of bytes as TXT holds them, first byte first (00_scope.md R7: texts concatenate first part first). -/
abbrev Text := List Byte

/-- A text of 7-bit ASCII characters (44_text_dump.md R221: "Every character is 7-bit ASCII"). -/
abbrev AsciiText := List (BitVec 7)

/-- Host byte order, the values of the parameter HOST_ORDER (00_scope.md R6). -/
inductive HostOrder where
  /-- LE: the byte at the lower offset is the less significant one. -/
  | le
  /-- BE: the byte at the lower offset is the more significant one. -/
  | be
  deriving DecidableEq, Repr, Inhabited

end Sys2Proof
end

