-- ==== Sys2Proof/Syntax.lean ====
section
/-! DEFINITION. The instructions of the PHU: one constructor per row of spec/opcode_table.json, in its order. -/
namespace Sys2Proof

/-- One operation of the PHU, selected by one 32-bit command word (30_encoding.md R100, R106, R107). The formats N and S
carry no operand (each selector is an instruction of its own, R103). Format A carries the raw reference `a`, the offset in
BUF of a header's first byte (R102, R104): a natural number, at most 65535 where well formed (log entry 20). -/
inductive Instr where
  /-- N2H16: network to host order, 16 bits (R130). -/
  | n2h16
  /-- H2N16: host to network order, 16 bits (R131). -/
  | h2n16
  /-- N2H32: network to host order, 32 bits (R132). -/
  | n2h32
  /-- H2N32: host to network order, 32 bits (R133). -/
  | h2n32
  /-- ETH.PARSE: establish V_ETH at offset `a` (R140). -/
  | ethParse (a : Nat)
  /-- ETH.GET.DST: destination MAC address (R141). -/
  | ethGetDst
  /-- ETH.GET.SRC: source MAC address (R142). -/
  | ethGetSrc
  /-- ETH.GET.TYPERAW: ethertype as a host-order load sees it (R143). -/
  | ethGetTyperaw
  /-- ETH.GET.TYPE: ethertype as a number (R144). -/
  | ethGetType
  /-- IP.INIT: initialise the header template (R150). -/
  | ipInit
  /-- IP.PARSE: establish V_IP (and V_ICMP) at offset `a` (R152). -/
  | ipParse (a : Nat)
  /-- IP.SETADDR: write both addresses into the header at `a` (R153). -/
  | ipSetaddr (a : Nat)
  /-- IP.ISV4: is the version nibble at `a` 4 (R155). -/
  | ipIsv4 (a : Nat)
  /-- IP.ISV6: is the version nibble at `a` 6 (R156). -/
  | ipIsv6 (a : Nat)
  /-- IP.NEXTID: next identification value (R157). -/
  | ipNextid
  /-- IP.PAYOFF: payload offset (R158). -/
  | ipPayoff
  /-- IP.PAYSZ: payload size (R159). -/
  | ipPaysz
  /-- IP.TMPLCOPY: copy the header template to offset `a` (R154). -/
  | ipTmplcopy (a : Nat)
  /-- IP.GET.VER (R161). -/
  | ipGetVer
  /-- IP.GET.IHL (R162). -/
  | ipGetIhl
  /-- IP.GET.TOS (R163). -/
  | ipGetTos
  /-- IP.GET.PREC (R164). -/
  | ipGetPrec
  /-- IP.GET.DSCP (R165). -/
  | ipGetDscp
  /-- IP.GET.TOTLEN (R166). -/
  | ipGetTotlen
  /-- IP.GET.ID (R167). -/
  | ipGetId
  /-- IP.GET.FLAGSFRAG (R168). -/
  | ipGetFlagsfrag
  /-- IP.GET.FLAGS (R169). -/
  | ipGetFlags
  /-- IP.GET.FRAG (R170). -/
  | ipGetFrag
  /-- IP.GET.TTL (R171). -/
  | ipGetTtl
  /-- IP.GET.PROTO (R172). -/
  | ipGetProto
  /-- IP.GET.CSUM (R173). -/
  | ipGetCsum
  /-- IP.GET.SRC (R174). -/
  | ipGetSrc
  /-- IP.GET.DST (R175). -/
  | ipGetDst
  /-- ICMP.GET.TYPE (R190). -/
  | icmpGetType
  /-- ICMP.GET.CODE (R191). -/
  | icmpGetCode
  /-- ICMP.GET.CSUM (R192). -/
  | icmpGetCsum
  /-- ICMP.TYPELBL (R193). -/
  | icmpTypelbl
  /-- ICMP.CODELBL (R195). -/
  | icmpCodelbl
  /-- ICMP.ISECHO (R194). -/
  | icmpIsecho
  /-- ICMP.CLASS (R197). -/
  | icmpClass
  /-- ICMP.ECHOLOC (R199). -/
  | icmpEcholoc
  /-- ICMP.GETID (R200). -/
  | icmpGetid
  /-- ICMP.GETSEQ (R201). -/
  | icmpGetseq
  /-- ETH.DUMPS (R224). -/
  | ethDumps
  /-- ETH.DUMPD (R225). -/
  | ethDumpd
  /-- IP.DUMP.PREC (R233). -/
  | ipDumpPrec
  /-- IP.DUMP.DSCP (R233). -/
  | ipDumpDscp
  /-- IP.DUMPVER (R227). -/
  | ipDumpver
  /-- IP.DUMPHL (R228). -/
  | ipDumphl
  /-- IP.DUMPTOS.PREC (R229). -/
  | ipDumptosPrec
  /-- IP.DUMPTOS.DSCP (R229). -/
  | ipDumptosDscp
  /-- IP.DUMPFF (R230). -/
  | ipDumpff
  /-- IP.DUMPPROTO (R231). -/
  | ipDumpproto
  /-- IP.DUMPADDR (R232). -/
  | ipDumpaddr
  /-- ICMP.DUMPS (R234). -/
  | icmpDumps
  /-- ICMP.DUMPD (R236). -/
  | icmpDumpd
  deriving DecidableEq, Repr

end Sys2Proof
end

