-- ==== Sys2Proof/WellFormed.lean ====
section
/-! DEFINITION. When an instruction is one that a command word can carry. -/
namespace Sys2Proof

/-- The raw reference an instruction of format A carries; none for formats N and S (30_encoding.md R101 to R104). -/
def Instr.rawRef : Instr → Option Nat
  | .n2h16 => none
  | .h2n16 => none
  | .n2h32 => none
  | .h2n32 => none
  | .ethParse a => some a
  | .ethGetDst => none
  | .ethGetSrc => none
  | .ethGetTyperaw => none
  | .ethGetType => none
  | .ipInit => none
  | .ipParse a => some a
  | .ipSetaddr a => some a
  | .ipIsv4 a => some a
  | .ipIsv6 a => some a
  | .ipNextid => none
  | .ipPayoff => none
  | .ipPaysz => none
  | .ipTmplcopy a => some a
  | .ipGetVer => none
  | .ipGetIhl => none
  | .ipGetTos => none
  | .ipGetPrec => none
  | .ipGetDscp => none
  | .ipGetTotlen => none
  | .ipGetId => none
  | .ipGetFlagsfrag => none
  | .ipGetFlags => none
  | .ipGetFrag => none
  | .ipGetTtl => none
  | .ipGetProto => none
  | .ipGetCsum => none
  | .ipGetSrc => none
  | .ipGetDst => none
  | .icmpGetType => none
  | .icmpGetCode => none
  | .icmpGetCsum => none
  | .icmpTypelbl => none
  | .icmpCodelbl => none
  | .icmpIsecho => none
  | .icmpClass => none
  | .icmpEcholoc => none
  | .icmpGetid => none
  | .icmpGetseq => none
  | .ethDumps => none
  | .ethDumpd => none
  | .ipDumpPrec => none
  | .ipDumpDscp => none
  | .ipDumpver => none
  | .ipDumphl => none
  | .ipDumptosPrec => none
  | .ipDumptosDscp => none
  | .ipDumpff => none
  | .ipDumpproto => none
  | .ipDumpaddr => none
  | .icmpDumps => none
  | .icmpDumpd => none

/-- A raw reference fits the 16-bit field A of the command word: "any value 0 to 65535" (30_encoding.md R102). It is
bounds-checked against LEN by the operation, not here. -/
def wellFormed (i : Instr) : Bool :=
  match i.rawRef with
  | some a => decide (a ≤ 65535)
  | none => true

end Sys2Proof
end

