-- ==== Sys2Proof/Decode.lean ====
section
/-! DEFINITION. Decoding of command words (30_encoding.md R100 to R110), total on all 2^32 words, and the encoder written
from the same tables. -/
namespace Sys2Proof

/-- Why a command word is no legal encoding: the four cases of 30_encoding.md R108. -/
inductive DecodeError where
  /-- (a): OP is not in the table of R106. -/
  | reservedOp
  /-- (b): the format is N or S and A ≠ 0. -/
  | offsetNotZero
  /-- (c): the format is N or A and M ≠ 0. -/
  | selectorNotZero
  /-- (d): the format is S and M is not in the table of R107 for this OP. -/
  | reservedSelector
  deriving DecidableEq, Repr

/-- Format N: OP alone is significant (R101). -/
def decodeN (m a : Nat) (i : Instr) : Except DecodeError Instr :=
  if a ≠ 0 then .error .offsetNotZero
  else if m ≠ 0 then .error .selectorNotZero
  else .ok i

/-- Format A: OP and A are significant (R102). -/
def decodeA (m a : Nat) (i : Nat → Instr) : Except DecodeError Instr :=
  if m ≠ 0 then .error .selectorNotZero
  else .ok (i a)

/-- Format S: OP and M are significant; `row` lists the instructions of M = 0, 1, 2, … (R103, R107). -/
def decodeS (m a : Nat) (row : List Instr) : Except DecodeError Instr :=
  if a ≠ 0 then .error .offsetNotZero
  else match row[m]? with
    | some i => .ok i
    | none => .error .reservedSelector

/-- The table of operation codes (R106), with the selector tables of R107. -/
def decodeFields (op m a : Nat) : Except DecodeError Instr :=
  if op = 0x01 then decodeN m a .n2h16
  else if op = 0x02 then decodeN m a .h2n16
  else if op = 0x03 then decodeN m a .n2h32
  else if op = 0x04 then decodeN m a .h2n32
  else if op = 0x10 then decodeA m a .ethParse
  else if op = 0x11 then decodeS m a [.ethGetDst, .ethGetSrc, .ethGetTyperaw, .ethGetType]
  else if op = 0x20 then decodeN m a .ipInit
  else if op = 0x21 then decodeA m a .ipParse
  else if op = 0x22 then decodeA m a .ipSetaddr
  else if op = 0x23 then decodeA m a .ipIsv4
  else if op = 0x24 then decodeA m a .ipIsv6
  else if op = 0x25 then decodeN m a .ipNextid
  else if op = 0x26 then decodeN m a .ipPayoff
  else if op = 0x27 then decodeN m a .ipPaysz
  else if op = 0x28 then decodeA m a .ipTmplcopy
  else if op = 0x29 then decodeS m a [.ipGetVer, .ipGetIhl, .ipGetTos, .ipGetPrec, .ipGetDscp,
      .ipGetTotlen, .ipGetId, .ipGetFlagsfrag, .ipGetFlags, .ipGetFrag,
      .ipGetTtl, .ipGetProto, .ipGetCsum, .ipGetSrc, .ipGetDst]
  else if op = 0x30 then decodeS m a [.icmpGetType, .icmpGetCode, .icmpGetCsum]
  else if op = 0x31 then decodeN m a .icmpTypelbl
  else if op = 0x32 then decodeN m a .icmpCodelbl
  else if op = 0x33 then decodeN m a .icmpIsecho
  else if op = 0x34 then decodeN m a .icmpClass
  else if op = 0x35 then decodeN m a .icmpEcholoc
  else if op = 0x36 then decodeN m a .icmpGetid
  else if op = 0x37 then decodeN m a .icmpGetseq
  else if op = 0x40 then decodeN m a .ethDumps
  else if op = 0x41 then decodeN m a .ethDumpd
  else if op = 0x42 then decodeS m a [.ipDumpPrec, .ipDumpDscp]
  else if op = 0x43 then decodeN m a .ipDumpver
  else if op = 0x44 then decodeN m a .ipDumphl
  else if op = 0x45 then decodeS m a [.ipDumptosPrec, .ipDumptosDscp]
  else if op = 0x46 then decodeN m a .ipDumpff
  else if op = 0x47 then decodeN m a .ipDumpproto
  else if op = 0x48 then decodeN m a .ipDumpaddr
  else if op = 0x49 then decodeN m a .icmpDumps
  else if op = 0x4A then decodeN m a .icmpDumpd
  else .error .reservedOp

/-- The decoding procedure (R110): OP = w[31:24], M = w[23:16], A = w[15:0]. -/
def decode (w : BitVec 32) : Except DecodeError Instr :=
  decodeFields (w.toNat / 2 ^ 24) (w.toNat / 2 ^ 16 % 256) (w.toNat % 2 ^ 16)

/-- The command word whose bits, numbered as spec/opcode_table.json numbers them, are the low `nbits` bits of `w`; every
bit above is 0 (R100: a command is one 32-bit word, so no byte order enters; log entry 21). -/
def commandWord (nbits w : Nat) : BitVec 32 :=
  BitVec.ofNat 32 (w % 2 ^ nbits)

/-- The instruction the decoder reads from the `nbits` bits `w`; none where the word is no legal encoding (R108). -/
def decodeTableWord (nbits w : Nat) : Option Instr :=
  match decode (commandWord nbits w) with
  | .ok i => some i
  | .error _ => none

/-! ### The encoder -/

/-- The three fields of a command word, as numbers (R100). -/
structure CommandFields where
  /-- OP, bits 31:24. -/
  op : Nat
  /-- M, bits 23:16. -/
  m : Nat
  /-- A, bits 15:0. -/
  a : Nat
  deriving DecidableEq, Repr

/-- The fields of an instruction, read off the tables of R106 and R107. -/
def Instr.fields : Instr → CommandFields
  | .n2h16 => ⟨0x01, 0, 0⟩
  | .h2n16 => ⟨0x02, 0, 0⟩
  | .n2h32 => ⟨0x03, 0, 0⟩
  | .h2n32 => ⟨0x04, 0, 0⟩
  | .ethParse a => ⟨0x10, 0, a⟩
  | .ethGetDst => ⟨0x11, 0, 0⟩
  | .ethGetSrc => ⟨0x11, 1, 0⟩
  | .ethGetTyperaw => ⟨0x11, 2, 0⟩
  | .ethGetType => ⟨0x11, 3, 0⟩
  | .ipInit => ⟨0x20, 0, 0⟩
  | .ipParse a => ⟨0x21, 0, a⟩
  | .ipSetaddr a => ⟨0x22, 0, a⟩
  | .ipIsv4 a => ⟨0x23, 0, a⟩
  | .ipIsv6 a => ⟨0x24, 0, a⟩
  | .ipNextid => ⟨0x25, 0, 0⟩
  | .ipPayoff => ⟨0x26, 0, 0⟩
  | .ipPaysz => ⟨0x27, 0, 0⟩
  | .ipTmplcopy a => ⟨0x28, 0, a⟩
  | .ipGetVer => ⟨0x29, 0, 0⟩
  | .ipGetIhl => ⟨0x29, 1, 0⟩
  | .ipGetTos => ⟨0x29, 2, 0⟩
  | .ipGetPrec => ⟨0x29, 3, 0⟩
  | .ipGetDscp => ⟨0x29, 4, 0⟩
  | .ipGetTotlen => ⟨0x29, 5, 0⟩
  | .ipGetId => ⟨0x29, 6, 0⟩
  | .ipGetFlagsfrag => ⟨0x29, 7, 0⟩
  | .ipGetFlags => ⟨0x29, 8, 0⟩
  | .ipGetFrag => ⟨0x29, 9, 0⟩
  | .ipGetTtl => ⟨0x29, 10, 0⟩
  | .ipGetProto => ⟨0x29, 11, 0⟩
  | .ipGetCsum => ⟨0x29, 12, 0⟩
  | .ipGetSrc => ⟨0x29, 13, 0⟩
  | .ipGetDst => ⟨0x29, 14, 0⟩
  | .icmpGetType => ⟨0x30, 0, 0⟩
  | .icmpGetCode => ⟨0x30, 1, 0⟩
  | .icmpGetCsum => ⟨0x30, 2, 0⟩
  | .icmpTypelbl => ⟨0x31, 0, 0⟩
  | .icmpCodelbl => ⟨0x32, 0, 0⟩
  | .icmpIsecho => ⟨0x33, 0, 0⟩
  | .icmpClass => ⟨0x34, 0, 0⟩
  | .icmpEcholoc => ⟨0x35, 0, 0⟩
  | .icmpGetid => ⟨0x36, 0, 0⟩
  | .icmpGetseq => ⟨0x37, 0, 0⟩
  | .ethDumps => ⟨0x40, 0, 0⟩
  | .ethDumpd => ⟨0x41, 0, 0⟩
  | .ipDumpPrec => ⟨0x42, 0, 0⟩
  | .ipDumpDscp => ⟨0x42, 1, 0⟩
  | .ipDumpver => ⟨0x43, 0, 0⟩
  | .ipDumphl => ⟨0x44, 0, 0⟩
  | .ipDumptosPrec => ⟨0x45, 0, 0⟩
  | .ipDumptosDscp => ⟨0x45, 1, 0⟩
  | .ipDumpff => ⟨0x46, 0, 0⟩
  | .ipDumpproto => ⟨0x47, 0, 0⟩
  | .ipDumpaddr => ⟨0x48, 0, 0⟩
  | .icmpDumps => ⟨0x49, 0, 0⟩
  | .icmpDumpd => ⟨0x4A, 0, 0⟩

/-- The command word of an instruction: `w = OP × 2^24 + M × 2^16 + A` (R100). -/
def encode (i : Instr) : BitVec 32 :=
  BitVec.ofNat 32 (i.fields.op * 2 ^ 24 + i.fields.m * 2 ^ 16 + i.fields.a)

end Sys2Proof
end

