-- ==== Sys2Proof/Config.lean ====
section
/-! DEFINITION. The OPEN parameters of 00_scope.md R6 and the model's free values: constants with no body, so that
every claim holds for every value of them (log entries 6, 7, 8, 11, 18). The constants the source FIXES (R5) are here too,
with their values. -/
namespace Sys2Proof.Config

/-! ### Constants the source fixes (R5) -/

/-- ETH_HDR_LEN, in bytes (R5). -/
abbrev ethHdrLen : Nat := 14
/-- IP_MIN_HDR, in bytes (R5). -/
abbrev ipMinHdr : Nat := 20
/-- ICMP_HDR_LEN, in bytes (R5). -/
abbrev icmpHdrLen : Nat := 4
/-- ECHO_HDR_LEN, in bytes (R5). -/
abbrev echoHdrLen : Nat := 4
/-- PROTO_ICMP (R5, R98). -/
abbrev protoIcmp : Nat := 0x01
/-- PROTO_TCP (R5, R98). -/
abbrev protoTcp : Nat := 0x06
/-- PROTO_UDP: 23, not the standard 17 (R5, R98; 90_conflicts.md C1: not to be corrected). -/
abbrev protoUdp : Nat := 0x17
/-- ICMP_ECHO_REPLY (R5). -/
abbrev icmpEchoReply : Nat := 0
/-- ICMP_DEST_UNREACH (R5). -/
abbrev icmpDestUnreach : Nat := 3
/-- ICMP_REDIRECT (R5). -/
abbrev icmpRedirect : Nat := 5
/-- ICMP_ECHO_REQUEST (R5). -/
abbrev icmpEchoRequest : Nat := 8
/-- ICMP_TIME_EXCEEDED (R5). -/
abbrev icmpTimeExceeded : Nat := 11
/-- ICMP_TYPE_MAX, the highest tabulated type (R5). -/
abbrev icmpTypeMax : Nat := 11
/-- UNREACH_CODE_MAX (R5). -/
abbrev unreachCodeMax : Nat := 15

/-! ### OPEN parameters (R6; DESIGN CHOICE of form, log entry 6: opaque constants; safe) -/

/-- BUF_SIZE less one: R6 gives the range 1 ≤ BUF_SIZE ≤ 65535. -/
opaque bufSizePred : Fin 65535
/-- BUF_SIZE, the number of bytes of BUF (R6, R30). -/
def bufSize : Nat := bufSizePred.val + 1
/-- HOST_ORDER (R6, 20_memory.md R62). -/
opaque hostOrder : HostOrder
/-- SEQ_RESET, the value of SEQ after reset (R6, R33, R47). -/
opaque seqReset : BitVec 16
/-- TMPL_INIT, the twenty bytes IP.INIT writes to TMPL (R6, R150). -/
opaque tmplInit : Vector Byte 20
/-- REDIR_CODE_MAX, a natural ≤ 255 (R6, R195). -/
opaque redirCodeMax : Fin 256
/-- TIMEX_CODE_MAX, a natural ≤ 255 (R6, R195). -/
opaque timexCodeMax : Fin 256
/-- TYPE_LABEL[0] (R6, R193). -/
opaque typeLabelEchoReply : AsciiText
/-- TYPE_LABEL[3] (R6, R193). -/
opaque typeLabelDestUnreach : AsciiText
/-- TYPE_LABEL[5] (R6, R193). -/
opaque typeLabelRedirect : AsciiText
/-- TYPE_LABEL[11] (R6, R193). -/
opaque typeLabelTimeExceeded : AsciiText
/-- UNREACH_LABEL, indices 0 to UNREACH_CODE_MAX (R6, R31, R196); no operation indexes it beyond. -/
opaque unreachLabel : Nat → AsciiText
/-- REDIR_LABEL, indices 0 to REDIR_CODE_MAX (R6, R31, R196); no operation indexes it beyond. -/
opaque redirLabel : Nat → AsciiText
/-- TIMEX_LABEL, indices 0 to TIMEX_CODE_MAX (R6, R31, R196); no operation indexes it beyond. -/
opaque timexLabel : Nat → AsciiText
/-- TXT_EOL (R6, R221); 7-bit by 10_state.md R37 (DEDUCED, log entry 7; unsafe). -/
opaque txtEol : AsciiText

/-! The label texts FMT_* of the detail blocks (R6; their defaults stand in 44_text_dump.md R225 to R236).
Each is the text that opens its line (DEDUCED, log entry 18; unsafe). -/

/-- FMT_ETH_DST (R225). -/
opaque fmtEthDst : AsciiText
/-- FMT_ETH_SRC (R225). -/
opaque fmtEthSrc : AsciiText
/-- FMT_ETH_TYPE (R225). -/
opaque fmtEthType : AsciiText
/-- FMT_IP_VER (R227). -/
opaque fmtIpVer : AsciiText
/-- FMT_IP_HL (R228). -/
opaque fmtIpHl : AsciiText
/-- FMT_IP_TOS (R229). -/
opaque fmtIpTos : AsciiText
/-- FMT_IP_FLAGS (R230). -/
opaque fmtIpFlags : AsciiText
/-- FMT_IP_FRAG (R230). -/
opaque fmtIpFrag : AsciiText
/-- FMT_IP_PROTO (R231). -/
opaque fmtIpProto : AsciiText
/-- FMT_IP_SRC (R232). -/
opaque fmtIpSrc : AsciiText
/-- FMT_IP_DST (R232). -/
opaque fmtIpDst : AsciiText
/-- FMT_ICMP_TYPE (R236). -/
opaque fmtIcmpType : AsciiText
/-- FMT_ICMP_CODE (R236). -/
opaque fmtIcmpCode : AsciiText
/-- FMT_ICMP_CSUM (R236). -/
opaque fmtIcmpCsum : AsciiText
/-- FMT_ICMP_ID (R236). -/
opaque fmtIcmpId : AsciiText
/-- FMT_ICMP_SEQ (R236). -/
opaque fmtIcmpSeq : AsciiText

/-! ### Free values (93_implementation_defined.md U6, U7: "any value") -/

/-- What the byte of BUF at an offset holds while it is unspecified: the first argument is the state's `bufEpoch`, the
second the offset (U6; 10_state.md R40, R41, R47; DESIGN CHOICE, log entry 8; safe). -/
opaque freeByte : Nat → Nat → Byte
/-- What the base of a view holds once its `v` bit has been cleared: the argument is the state's `freeDraws`
(U7; 10_state.md R35; DESIGN CHOICE, log entry 11; safe). -/
opaque freeBase : Nat → BitVec 17

end Sys2Proof.Config
end

