-- ==== Sys2Proof/Machine/State.lean ====
section
/-! DEFINITION. The architectural state of the PHU (10_state.md R20), the host's side that drives it, the reasons a step can
stop, and the state after reset (R47). -/
namespace Sys2Proof.Machine

/-- A byte memory as plain data: pairs of an offset and a byte, offsets strictly rising (`Memory.wf`). An offset that is not
listed holds an unspecified byte (log entry 8; safe). -/
abbrev Memory := List Host.Cell

/-- A view register (10_state.md R35): a pair of a valid bit and a byte offset into BUF. -/
structure View where
  /-- 1 when the view is established. -/
  v : Bool
  /-- The byte offset of the header in BUF; unspecified, and read by no rule, while `v` is 0. -/
  base : BitVec 17
  deriving DecidableEq, Repr

/-- One thing that happens to the PHU: a host action of 10_state.md R40 to R46, or the reset event of
70_reset_and_hazards.md R290 (log entry 13). -/
inductive HostEvent where
  /-- H.LOAD(bytes), R40. -/
  | load (bytes : List Byte)
  /-- H.RELEASE, R41. -/
  | release
  /-- H.WRITE(i, b), R42. -/
  | write (i : Nat) (b : Byte)
  /-- H.READ(i), R43. -/
  | read (i : Nat)
  /-- H.SETARG(k, w), R44: `k` is 0 or 1. -/
  | setArg (k : Fin 2) (w : BitVec 32)
  /-- H.CMD(w), R45: a write of `w` to CMD. -/
  | cmd (w : BitVec 32)
  /-- H.READRES, R46. -/
  | readRes
  /-- H.READTXT(k), R46. -/
  | readTxt (k : Nat)
  /-- The reset event, 70_reset_and_hazards.md R290. -/
  | reset
  deriving DecidableEq, Repr

/-- What one read returned to the host (10_state.md R43, R46; 70_reset_and_hazards.md R301: "the observable outcome"). -/
inductive Observation where
  /-- H.READ returned this byte. -/
  | byte (b : Byte)
  /-- H.READRES returned this RES and STATUS. -/
  | result (res : BitVec 64) (status : BitVec 8)
  /-- H.READTXT returned these bytes. -/
  | text (bytes : Text)
  deriving DecidableEq, Repr

/-- The reasons a step can fault. -/
inductive Fault where
  /-- Raised by IP.INIT with TMPLV = 1: "undefined", "a model treats it as a fault" (42_ipv4.md R150;
  70_reset_and_hazards.md R293; 93_implementation_defined.md U1). Safe: nothing can be proved of what follows. Log entry 5. -/
  | initTwice
  deriving DecidableEq, Repr

/-- The reasons a step can be refused. -/
inductive Refusal where
  /-- Raised by an arm of `exec` whose instruction has no meaning yet. Safe. No arm raises it. -/
  | notModelled (mnemonic : String)
  /-- Raised by H.LOAD of more than BUF_SIZE bytes: no such action exists (10_state.md R40). Safe. Log entry 4. -/
  | loadTooLong
  /-- Raised by H.WRITE with BUFV = 0 or i ≥ LEN: "the action is not available" (10_state.md R42). Safe. Log entry 4. -/
  | writeNotAvailable
  /-- Raised by H.READ with BUFV = 0 or i ≥ LEN, which it requires not to hold (10_state.md R43). Safe. Log entry 4. -/
  | readNotAvailable
  deriving DecidableEq, Repr

/-- The complete architectural state (10_state.md R20; INVENTORY.md), then the host's side, then the model's own counters of
free values. CMD holds no value between operations (R22): it has no field. -/
structure State where
  /-- ARG0 (R23). -/
  arg0 : BitVec 32
  /-- ARG1 (R24). -/
  arg1 : BitVec 32
  /-- RES (R26). -/
  res : BitVec 64
  /-- STATUS (R27). -/
  status : BitVec 8
  /-- LEN (R28). -/
  len : BitVec 16
  /-- BUFV (R29). -/
  bufv : Bool
  /-- BUF (R30). -/
  buf : Memory
  /-- SEQ (R33). -/
  seq : BitVec 16
  /-- TMPL (R34). -/
  tmpl : Vector Byte 20
  /-- TMPLV (R34). -/
  tmplv : Bool
  /-- V_ETH (R35). -/
  vEth : View
  /-- V_IP (R35). -/
  vIp : View
  /-- V_ICMP (R35). -/
  vIcmp : View
  /-- V_ECHO (R35). -/
  vEcho : View
  /-- TXT, oldest byte first (R37). -/
  txt : Text
  /-- The host actions not yet performed, oldest first (R39, R45; 70_reset_and_hazards.md R301; log entry 1). -/
  pending : List HostEvent
  /-- What the host's reads returned, oldest first (70_reset_and_hazards.md R301; log entry 3). -/
  seen : List Observation
  /-- The model's own: numbers the unspecified contents of BUF (log entries 8, 12). -/
  bufEpoch : Nat
  /-- The model's own: numbers the free values drawn for invalidated view bases (log entries 11, 12). -/
  freeDraws : Nat
  deriving DecidableEq, Repr

/-- The state after reset (10_state.md R47). DESIGN CHOICE, unsafe: TMPL and the view bases, which R47 leaves unspecified, are
zero (log entries 9, 10). -/
def State.reset : State where
  arg0 := 0
  arg1 := 0
  res := 0
  status := 0
  len := 0
  bufv := false
  buf := []
  seq := Config.seqReset
  tmpl := Vector.replicate 20 0
  tmplv := false
  vEth := ⟨false, 0⟩
  vIp := ⟨false, 0⟩
  vIcmp := ⟨false, 0⟩
  vEcho := ⟨false, 0⟩
  txt := []
  pending := []
  seen := []
  bufEpoch := 0
  freeDraws := 0

end Sys2Proof.Machine
end

