-- ==== Sys2Proof/Machine/Flags.lean ====
section
/-! DEFINITION. The failure reasons and the STATUS register, the PHU's only flags (10_state.md R27; 60_exceptions.md R263). -/
namespace Sys2Proof.Machine

/-- The failure reasons of 60_exceptions.md R263. -/
inductive Reason where
  | bufferTooShort
  | versionMismatch
  | unknownType
  | unknownCode
  | notApplicable
  | notEcho
  | inconsistent
  | invalidRef
  | illegalOp
  deriving DecidableEq, Repr

/-- The reason code (R263). -/
def Reason.code : Reason → Nat
  | .bufferTooShort => 1
  | .versionMismatch => 2
  | .unknownType => 3
  | .unknownCode => 4
  | .notApplicable => 5
  | .notEcho => 6
  | .inconsistent => 7
  | .invalidRef => 8
  | .illegalOp => 9

/-- STATUS after a success: 0x00 (60_exceptions.md R261). -/
def successStatus : BitVec 8 := 0

/-- STATUS after a failure: `1 + 2 × code` (60_exceptions.md R262): FAIL = 1 in bit 0, the code in bits 4:1. -/
def failStatus (r : Reason) : BitVec 8 :=
  BitVec.ofNat 8 (1 + 2 * r.code)

/-- FAIL, STATUS[0] (10_state.md R27). -/
def statusFail (st : BitVec 8) : Bool :=
  st.getLsbD 0

/-- REASON, STATUS[4:1] (10_state.md R27). -/
def statusReason (st : BitVec 8) : Nat :=
  st.toNat / 2 % 16

end Sys2Proof.Machine
end

