-- ==== Sys2Proof/Machine/Ops.lean ====
section
/-! DEFINITION. The shared operations: byte memory, MemRead and MemWrite, views, and how an operation ends (success, or
failure, which is what the PHU has in place of taking an exception: 60_exceptions.md R260 to R268). -/
namespace Sys2Proof.Machine

/-! ### Byte memory -/

/-- The byte listed at offset `a`; none where its content is unspecified. -/
def Memory.lookup : Memory → Nat → Option Byte
  | [], _ => none
  | (k, b) :: rest, a => if k = a then some b else Memory.lookup rest a

/-- Set the byte at offset `a`, keeping the offsets strictly rising. -/
def Memory.store : Memory → Nat → Byte → Memory
  | [], a, v => [(a, v)]
  | (k, b) :: rest, a, v =>
    if a < k then (a, v) :: (k, b) :: rest
    else if a = k then (a, v) :: rest
    else (k, b) :: Memory.store rest a v

/-- The memory that lists `bytes` at the offsets from `a` on, and nothing else. -/
def Memory.ofBytes (a : Nat) : List Byte → Memory
  | [] => []
  | b :: bs => (a, b) :: Memory.ofBytes (a + 1) bs

/-- The canonical form: offsets strictly rising (so no offset is listed twice, and equal contents are equal lists). -/
abbrev Memory.wf (m : Memory) : Prop :=
  List.Pairwise (fun x y => x.1 < y.1) m

/-- What a read of `BUF[a]` gives. An unlisted offset holds an unspecified byte: a free value
(93_implementation_defined.md U6; log entry 8). -/
def State.readByte (s : State) (a : Nat) : Byte :=
  match Memory.lookup s.buf a with
  | some b => b
  | none => Config.freeByte s.bufEpoch a

/-- `BUF[a] <- b`. -/
def State.writeByte (s : State) (a : Nat) (b : Byte) : State :=
  { s with buf := Memory.store s.buf a b }

/-- The bytes `BUF[a] .. BUF[a+n-1]`, lowest offset first. -/
def State.readBytes (s : State) (a : Nat) : Nat → List Byte
  | 0 => []
  | n + 1 => s.readByte a :: State.readBytes s (a + 1) n

/-- Write `bytes` at the offsets from `a` on, lowest first. -/
def State.writeBytes (s : State) (a : Nat) : List Byte → State
  | [] => s
  | b :: bs => State.writeBytes (s.writeByte a b) (a + 1) bs

/-- The value of the `n`-byte field at offset `a`, the byte at the lowest offset most significant (20_memory.md R61). -/
def State.readBE (s : State) (a : Nat) : Nat → Nat
  | 0 => 0
  | n + 1 => (s.readByte a).toNat * 256 ^ n + State.readBE s (a + 1) n

/-- The `n`-byte big-endian image of `v`: byte `k` is `(v / 256^(n-1-k)) mod 256` (20_memory.md R65). -/
def beBytes (v : Nat) : Nat → List Byte
  | 0 => []
  | n + 1 => BitVec.ofNat 8 (v / 256 ^ n) :: beBytes v n

/-- A 16-bit load in host order of the byte `lo` at the lower offset and `hi` at the higher one (20_memory.md R62). -/
def hostLoad16 (o : HostOrder) (lo hi : Byte) : Nat :=
  match o with
  | .be => lo.toNat * 256 + hi.toNat
  | .le => hi.toNat * 256 + lo.toNat

/-! ### How an operation ends -/

/-- `raise r` unless `c` holds (00_scope.md R9). -/
def require (c : Prop) [Decidable c] (r : Reason) : Except Reason Unit :=
  if c then .ok () else .error r

/-- The end of an operation that succeeds: RES gets the result zero-extended, STATUS gets 0x00 (60_exceptions.md R261;
10_state.md R26). -/
def State.succeed (s : State) (v : Nat) : State :=
  { s with res := BitVec.ofNat 64 v, status := successStatus }

/-- `raise r`, the PHU's only form of taking an exception: STATUS gets the reason and NOTHING else changes
(60_exceptions.md R262, R267). There is no return from it (R268). -/
def State.fail (s : State) (r : Reason) : State :=
  { s with status := failStatus r }

/-- End an operation begun in `s`, whose pseudocode gave the state with its writes made and its result, or raised. A raise
keeps the state `s` had before the operation (60_exceptions.md R262). -/
def finish (s : State) (r : Except Reason (State × Nat)) : Host.Outcome State Fault Refusal :=
  match r with
  | .ok (t, v) => .next (t.succeed v)
  | .error e => .next (s.fail e)

/-- End an operation that writes nothing but RES and STATUS. -/
def finishValue (s : State) (r : Except Reason Nat) : Host.Outcome State Fault Refusal :=
  match r with
  | .ok v => .next (s.succeed v)
  | .error e => .next (s.fail e)

/-- End a dump operation with its pending text `P`: `TXT <- TXT ++ P` and RES gets the length of `P`; a raise discards `P`
(44_text_dump.md R221). -/
def finishText (s : State) (r : Except Reason Text) : Host.Outcome State Fault Refusal :=
  match r with
  | .ok p => .next (State.succeed { s with txt := s.txt ++ p } p.length)
  | .error e => .next (s.fail e)

/-! ### Checked access to BUF -/

/-- `MemRead(a, n)` (00_scope.md R9; 20_memory.md R61, R64). -/
def memRead (s : State) (a n : Nat) : Except Reason Nat :=
  if a + n ≤ s.len.toNat then .ok (s.readBE a n) else .error .bufferTooShort

/-- The `n` bytes at `a`, bounds-checked like every read of BUF (20_memory.md R64). -/
def memReadBytes (s : State) (a n : Nat) : Except Reason (List Byte) :=
  if a + n ≤ s.len.toNat then .ok (s.readBytes a n) else .error .bufferTooShort

/-- `MemRead(a + i, 1)` for `i` from 0 to `n - 1`, each checked as it is read (44_text_dump.md R236): with `n = 0` nothing is
read or checked. -/
def memReadEach (s : State) (a : Nat) : Nat → Except Reason (List Byte)
  | 0 => .ok []
  | n + 1 => do
    let b ← memRead s a 1
    let bs ← memReadEach s (a + 1) n
    .ok (BitVec.ofNat 8 b :: bs)

/-- `MemReadHost16(a)` (00_scope.md R9; 20_memory.md R62, R64). -/
def memReadHost16 (s : State) (a : Nat) : Except Reason Nat :=
  if a + 2 ≤ s.len.toNat then .ok (hostLoad16 Config.hostOrder (s.readByte a) (s.readByte (a + 1)))
  else .error .bufferTooShort

/-- `MemWrite(a, n, v)` (00_scope.md R9; 20_memory.md R65). -/
def memWrite (s : State) (a n v : Nat) : Except Reason State :=
  if a + n ≤ s.len.toNat then .ok (s.writeBytes a (beBytes v n)) else .error .bufferTooShort

/-! ### Views -/

/-- `{ v = 1, base = b }` (10_state.md R35). -/
def View.at (b : Nat) : View :=
  ⟨true, BitVec.ofNat 17 b⟩

/-- `{ v = 0 }`: the base is unspecified from then on (10_state.md R35), free value number `k` (log entry 11). -/
def View.dropped (k : Nat) : View :=
  ⟨false, Config.freeBase k⟩

/-- `if V.v = 0 then raise InvalidRef`, then the view's base (10_state.md R35). -/
def requireView (w : View) : Except Reason Nat :=
  if w.v then .ok w.base.toNat else .error .invalidRef

/-- `if BUFV = 0 then raise InvalidRef` (10_state.md R29). -/
def requireBuf (s : State) : Except Reason Unit :=
  require (s.bufv = true) .invalidRef

/-- Clear the `v` bit of all four views (10_state.md R40, R41). -/
def State.dropViews (s : State) : State :=
  { s with
    vEth := View.dropped s.freeDraws
    vIp := View.dropped (s.freeDraws + 1)
    vIcmp := View.dropped (s.freeDraws + 2)
    vEcho := View.dropped (s.freeDraws + 3)
    freeDraws := s.freeDraws + 4 }

end Sys2Proof.Machine
end

