-- ==== Sys2Proof/Machine/Operands.lean ====
section
/-! DEFINITION. Operand forms (30_encoding.md R105, R114), bit slices, and the helper functions on headers that several
operations share (42_ipv4.md R151, R159; 43_icmp.md R194, R195, R198). -/
namespace Sys2Proof.Machine

/-! ### Slices and operand registers -/

/-- `v[hi:lo]` as a number (00_scope.md R7). -/
def slice (hi lo v : Nat) : Nat :=
  v / 2 ^ lo % 2 ^ (hi - lo + 1)

/-- ARG0[15:0] (30_encoding.md R105). -/
def arg0Low16 (s : State) : BitVec 16 :=
  s.arg0.extractLsb' 0 16

/-- `bswap16(x) = x[7:0] ++ x[15:8]` (40_byteorder.md R130). -/
def bswap16 (x : BitVec 16) : BitVec 16 :=
  x.extractLsb' 0 8 ++ x.extractLsb' 8 8

/-- `bswap32(x) = x[7:0] ++ x[15:8] ++ x[23:16] ++ x[31:24]` (40_byteorder.md R132). -/
def bswap32 (x : BitVec 32) : BitVec 32 :=
  x.extractLsb' 0 8 ++ x.extractLsb' 8 8 ++ x.extractLsb' 16 8 ++ x.extractLsb' 24 8

/-- Conversion of a 16-bit value between wire and host order (40_byteorder.md R130, R131). -/
def convert16 (o : HostOrder) (x : BitVec 16) : BitVec 16 :=
  match o with
  | .le => bswap16 x
  | .be => x

/-- Conversion of a 32-bit value between wire and host order (40_byteorder.md R132, R133). -/
def convert32 (o : HostOrder) (x : BitVec 32) : BitVec 32 :=
  match o with
  | .le => bswap32 x
  | .be => x

/-! ### Raw references -/

/-- The bytes available from the raw reference `a`: `if A <= LEN then LEN - A else 0` (41_ethernet.md R140; 42_ipv4.md R152). -/
def available (s : State) (a : Nat) : Nat :=
  if a ≤ s.len.toNat then s.len.toNat - a else 0

/-! ### The IPv4 header at offset `b` (42_ipv4.md R151; offsets of 30_encoding.md R91) -/

/-- `ver(b) = MemRead(b, 1)[7:4]`. -/
def ipVer (s : State) (b : Nat) : Except Reason Nat := do
  let x ← memRead s b 1
  .ok (slice 7 4 x)

/-- `ihl(b) = MemRead(b, 1)[3:0]`. -/
def ipIhl (s : State) (b : Nat) : Except Reason Nat := do
  let x ← memRead s b 1
  .ok (slice 3 0 x)

/-- `hdr_bytes(b) = 4 × ihl(b)`; never compared with 20 (42_ipv4.md R176). -/
def ipHdrBytes (s : State) (b : Nat) : Except Reason Nat := do
  let n ← ipIhl s b
  .ok (4 * n)

/-- `total_len(b) = MemRead(b + 2, 2)`. -/
def ipTotalLen (s : State) (b : Nat) : Except Reason Nat :=
  memRead s (b + 2) 2

/-- `proto(b) = MemRead(b + 9, 1)`. -/
def ipProto (s : State) (b : Nat) : Except Reason Nat :=
  memRead s (b + 9) 1

/-- The protocol class: 1 ICMP, 2 TCP, 3 UDP (0x17), 0 otherwise (42_ipv4.md R152; 30_encoding.md R98). -/
def protoClass (p : Nat) : Nat :=
  if p = Config.protoIcmp then 1
  else if p = Config.protoTcp then 2
  else if p = Config.protoUdp then 3
  else 0

/-- `payload_size(b)`: total length less header bytes, or Inconsistent (42_ipv4.md R159). -/
def payloadSize (s : State) (b : Nat) : Except Reason Nat := do
  let tl ← ipTotalLen s b
  let hb ← ipHdrBytes s b
  require (hb ≤ tl) .inconsistent
  .ok (tl - hb)

/-! ### ICMP types and codes -/

/-- `is_echo(t)`: `t = 8 or t = 0` (43_icmp.md R194). -/
def isEcho (t : Nat) : Bool :=
  t == Config.icmpEchoRequest || t == Config.icmpEchoReply

/-- The three code tables (43_icmp.md R195, R196). -/
inductive CodeTable where
  | unreach
  | redir
  | timex
  deriving DecidableEq, Repr

/-- The number RES[9:8] gives a code table (43_icmp.md R195). -/
def codeTableNumber : CodeTable → Nat
  | .unreach => 1
  | .redir => 2
  | .timex => 3

/-- The code table in which (t, c) has a label, for a message that is no echo, or UnknownCode: the part of
43_icmp.md R195 after the code byte is read. -/
def codeTable (t c : Nat) : Except Reason CodeTable :=
  if t = Config.icmpDestUnreach then
    if c > Config.unreachCodeMax then .error .unknownCode else .ok .unreach
  else if t = Config.icmpRedirect then
    if c > Config.redirCodeMax.val then .error .unknownCode else .ok .redir
  else if t = Config.icmpTimeExceeded then
    if c > Config.timexCodeMax.val then .error .unknownCode else .ok .timex
  else .error .unknownCode

/-- The class of a message: 0 Echo, 1 DestinationUnreachable, 2 Redirect, 3 TimeExceeded, 4 Unclassified
(43_icmp.md R197). -/
def icmpClass (t : Nat) : Nat :=
  if isEcho t then 0
  else if t = Config.icmpDestUnreach then 1
  else if t = Config.icmpRedirect then 2
  else if t = Config.icmpTimeExceeded then 3
  else 4

/-- `echo_data_len(ipb)`: the declared payload less the two headers, or Inconsistent (43_icmp.md R198). -/
def echoDataLen (s : State) (ipb : Nat) : Except Reason Nat := do
  let ps ← payloadSize s ipb
  require (Config.icmpHdrLen + Config.echoHdrLen ≤ ps) .inconsistent
  .ok (ps - (Config.icmpHdrLen + Config.echoHdrLen))

end Sys2Proof.Machine
end

