-- ==== Sys2Proof/Machine/ByteOrder.lean ====
section
/-! DEFINITION. The byte-order conversion operations (40_byteorder.md R130 to R133). They need no buffer and no view, and
cannot fail. -/
namespace Sys2Proof.Machine

/-- N2H16 (R130): ARG0[31:16] is ignored. -/
def execN2h16 (s : State) : Host.Outcome State Fault Refusal :=
  finishValue s (.ok (convert16 Config.hostOrder (arg0Low16 s)).toNat)

/-- H2N16 (R131): the same function as N2H16, an operation of its own. -/
def execH2n16 (s : State) : Host.Outcome State Fault Refusal :=
  finishValue s (.ok (convert16 Config.hostOrder (arg0Low16 s)).toNat)

/-- N2H32 (R132). -/
def execN2h32 (s : State) : Host.Outcome State Fault Refusal :=
  finishValue s (.ok (convert32 Config.hostOrder s.arg0).toNat)

/-- H2N32 (R133). -/
def execH2n32 (s : State) : Host.Outcome State Fault Refusal :=
  finishValue s (.ok (convert32 Config.hostOrder s.arg0).toNat)

end Sys2Proof.Machine
end

