-- ==== Sys2Proof/Machine/Text.lean ====
section
/-! DEFINITION. Text rendering: number and address formats, labels, lines, the hex dump (44_text_dump.md R221 to R226, R234,
R235; 43_icmp.md R193, R196). -/
namespace Sys2Proof.Machine

/-- The bytes of a 7-bit ASCII text (44_text_dump.md R221: one byte each). -/
def asciiText (t : AsciiText) : Text :=
  t.map (fun c => c.setWidth 8)

/-- The bytes of a text written out as characters. -/
def chars (t : List Char) : Text :=
  t.map (fun c => BitVec.ofNat 8 c.toNat)

/-- The text TXT_EOL (00_scope.md R6). -/
def eol : Text := asciiText Config.txtEol

/-- `line(t)` is `emit(t ++ TXT_EOL)` (R221). -/
def line (t : Text) : Text := t ++ eol

/-! ### Numbers (R222) -/

/-- One lowercase hexadecimal digit. -/
def hexDigit (d : Nat) : Byte :=
  if d < 10 then BitVec.ofNat 8 (0x30 + d) else BitVec.ofNat 8 (0x61 + (d - 10))

/-- `hex2(v)`: exactly two lowercase hexadecimal digits (R222). -/
def hex2 (v : Nat) : Text :=
  [hexDigit (v / 16 % 16), hexDigit (v % 16)]

/-- `hex4(v)`: exactly four lowercase hexadecimal digits (R222). -/
def hex4 (v : Nat) : Text :=
  hex2 (v / 256) ++ hex2 v

/-- One decimal digit. -/
def decDigit (d : Nat) : Byte :=
  BitVec.ofNat 8 (0x30 + d)

/-- The decimal digits of `v`, at most `fuel` of them, most significant first. -/
def decDigits : Nat → Nat → Text
  | 0, _ => []
  | fuel + 1, v =>
    if v < 10 then [decDigit v] else decDigits fuel (v / 10) ++ [decDigit (v % 10)]

/-- `dec(v)`: the decimal digits of `v`, no sign, no leading zeros, "0" for zero (R222). -/
def dec (v : Nat) : Text :=
  decDigits (v + 1) v

/-- A hex-prefixed quantity of 8 bits or fewer (R222). -/
def prefixedHex2 (v : Nat) : Text :=
  chars ['0', 'x'] ++ hex2 v

/-- A hex-prefixed 16-bit quantity (R222). -/
def prefixedHex4 (v : Nat) : Text :=
  chars ['0', 'x'] ++ hex4 v

/-- A text in parentheses, after a space, as the detail blocks show a second form of a value. -/
def inParens (t : Text) : Text :=
  chars [' ', '('] ++ t ++ chars [')']

/-! ### Addresses (R223, R226) -/

/-- The texts joined with a separator between any two. -/
def joinTexts (sep : Text) : List Text → Text
  | [] => []
  | [t] => t
  | t :: u :: rest => t ++ sep ++ joinTexts sep (u :: rest)

/-- `mac(b0 .. b5)`: hyphen-separated lowercase hex octets in wire byte order (R223). -/
def mac (bs : List Byte) : Text :=
  joinTexts (chars ['-']) (bs.map (fun b => hex2 b.toNat))

/-- `ipaddr(b0 .. b3)`: dotted decimal (R226). -/
def ipaddr (bs : List Byte) : Text :=
  joinTexts (chars ['.']) (bs.map (fun b => dec b.toNat))

/-! ### The hex dump (R235) -/

/-- The hex dump of the bytes `i, i + 1, …` of `n` bytes: pairs, a space after each pair inside a line, the line's end after
every eighth byte and after the last. -/
def hexdumpFrom (n i : Nat) : List Byte → Text
  | [] => []
  | b :: bs =>
    hex2 b.toNat
      ++ (if (i + 1) % 8 = 0 ∨ i + 1 = n then eol
          else if (i + 1) % 2 = 0 then chars [' '] else [])
      ++ hexdumpFrom n (i + 1) bs

/-- `hexdump(d[0 .. n-1])` (R235). -/
def hexdump (d : List Byte) : Text :=
  hexdumpFrom d.length 0 d

/-! ### Labels -/

/-- The placeholder "unknown" (43_icmp.md R193; 44_text_dump.md R231, R234). -/
def unknownText : Text :=
  chars ['u', 'n', 'k', 'n', 'o', 'w', 'n']

/-- TYPE_LABEL[8]: "echo request", fixed (43_icmp.md R193; 90_conflicts.md C2). -/
def echoRequestText : Text :=
  chars ['e', 'c', 'h', 'o', ' ', 'r', 'e', 'q', 'u', 'e', 's', 't']

/-- The ROM TYPE_LABEL, indices 0 to 11 (43_icmp.md R193). -/
def typeLabelRom : List Text :=
  [asciiText Config.typeLabelEchoReply, unknownText, unknownText, asciiText Config.typeLabelDestUnreach,
   unknownText, asciiText Config.typeLabelRedirect, unknownText, unknownText,
   echoRequestText, unknownText, unknownText, asciiText Config.typeLabelTimeExceeded]

/-- `if t <= 11 then TYPE_LABEL[t] else "unknown"` (44_text_dump.md R234). -/
def typeLabelOrUnknown (t : Nat) : Text :=
  match typeLabelRom[t]? with
  | some l => l
  | none => unknownText

/-- Entry `c` of a code-label ROM (43_icmp.md R196). -/
def codeLabelRom (tbl : CodeTable) (c : Nat) : Text :=
  match tbl with
  | .unreach => asciiText (Config.unreachLabel c)
  | .redir => asciiText (Config.redirLabel c)
  | .timex => asciiText (Config.timexLabel c)

/-- The label ICMP.CODELBL would give for (t, c), "unknown" where it would fail with UnknownCode (44_text_dump.md R234). -/
def codeLabelOrUnknown (t c : Nat) : Text :=
  match codeTable t c with
  | .ok tbl => codeLabelRom tbl c
  | .error _ => unknownText

/-- The name of a protocol (44_text_dump.md R231): 0x17 is `udp`, 0x11 is `unknown`. -/
def protoName (p : Nat) : Text :=
  if p = Config.protoIcmp then chars ['i', 'c', 'm', 'p']
  else if p = Config.protoTcp then chars ['t', 'c', 'p']
  else if p = Config.protoUdp then chars ['u', 'd', 'p']
  else unknownText

end Sys2Proof.Machine
end

