-- ==== Sys2Proof/Machine/Dump.lean ====
section
/-! DEFINITION. The text rendering (dump) operations (44_text_dump.md R224 to R236). Each renders one layer (R237) and writes
only TXT, RES and STATUS (R220). -/
namespace Sys2Proof.Machine

/-! ### Ethernet -/

/-- ETH.DUMPS (R224): the source address first, then the destination. -/
def execEthDumps (s : State) : Host.Outcome State Fault Refusal :=
  finishText s do
    let b ← requireView s.vEth
    let dst ← memReadBytes s b 6
    let src ← memReadBytes s (b + 6) 6
    .ok (line (chars ['e', 't', 'h', 'e', 'r', ' '] ++ mac src ++ chars [' ', '>', '>', ' '] ++ mac dst))

/-- ETH.DUMPD (R225). -/
def execEthDumpd (s : State) : Host.Outcome State Fault Refusal :=
  finishText s do
    let b ← requireView s.vEth
    let et ← memRead s (b + 12) 2
    let dst ← memReadBytes s b 6
    let src ← memReadBytes s (b + 6) 6
    .ok (line (asciiText Config.fmtEthDst ++ mac dst)
      ++ line (asciiText Config.fmtEthSrc ++ mac src)
      ++ line (asciiText Config.fmtEthType ++ dec et ++ inParens (prefixedHex4 et)))

/-! ### IPv4: the six parts, each for the header at offset `b` -/

/-- The text of IP.DUMPVER (R227). -/
def textIpVer (s : State) (b : Nat) : Except Reason Text := do
  let v ← ipVer s b
  .ok (line (asciiText Config.fmtIpVer ++ dec v))

/-- The text of IP.DUMPHL (R228): the word count, then the byte count. -/
def textIpHl (s : State) (b : Nat) : Except Reason Text := do
  let n ← ipIhl s b
  .ok (line (asciiText Config.fmtIpHl ++ dec n
    ++ inParens (dec (4 * n) ++ chars [' ', 'b', 'y', 't', 'e', 's'])))

/-- The text of IP.DUMPTOS.PREC (R229). -/
def textIpTosPrec (s : State) (b : Nat) : Except Reason Text := do
  let t ← memRead s (b + 1) 1
  .ok (line (asciiText Config.fmtIpTos ++ prefixedHex2 t
    ++ chars [' ', 'p', 'r', 'e', 'c', 'e', 'd', 'e', 'n', 'c', 'e', ' '] ++ dec (slice 7 5 t)))

/-- The text of IP.DUMPTOS.DSCP (R229). -/
def textIpTosDscp (s : State) (b : Nat) : Except Reason Text := do
  let t ← memRead s (b + 1) 1
  .ok (line (asciiText Config.fmtIpTos ++ prefixedHex2 t
    ++ chars [' ', 'd', 's', 'c', 'p', ' '] ++ dec (slice 7 2 t)))

/-- The text of IP.DUMPFF (R230). -/
def textIpFf (s : State) (b : Nat) : Except Reason Text := do
  let ff ← memRead s (b + 6) 2
  .ok (line (asciiText Config.fmtIpFlags ++ prefixedHex2 (slice 15 13 ff))
    ++ line (asciiText Config.fmtIpFrag ++ dec (slice 12 0 ff)))

/-- The text of IP.DUMPPROTO (R231). -/
def textIpProto (s : State) (b : Nat) : Except Reason Text := do
  let p ← ipProto s b
  .ok (line (asciiText Config.fmtIpProto ++ protoName p ++ inParens (prefixedHex2 p)))

/-- The text of IP.DUMPADDR (R232). -/
def textIpAddr (s : State) (b : Nat) : Except Reason Text := do
  let src ← memReadBytes s (b + 12) 4
  let dst ← memReadBytes s (b + 16) 4
  .ok (line (asciiText Config.fmtIpSrc ++ ipaddr src) ++ line (asciiText Config.fmtIpDst ++ ipaddr dst))

/-- The text of IP.DUMP.m (R233): the six parts in the source's order, with the tos part given. -/
def textIpAll (tos : State → Nat → Except Reason Text) (s : State) (b : Nat) : Except Reason Text := do
  let ver ← textIpVer s b
  let hl ← textIpHl s b
  let t ← tos s b
  let ff ← textIpFf s b
  let proto ← textIpProto s b
  let addr ← textIpAddr s b
  .ok (ver ++ hl ++ t ++ ff ++ proto ++ addr)

/-- IP.DUMPVER (R227). -/
def execIpDumpver (s : State) : Host.Outcome State Fault Refusal :=
  finishText s do
    let b ← requireView s.vIp
    textIpVer s b

/-- IP.DUMPHL (R228). -/
def execIpDumphl (s : State) : Host.Outcome State Fault Refusal :=
  finishText s do
    let b ← requireView s.vIp
    textIpHl s b

/-- IP.DUMPTOS.PREC (R229). -/
def execIpDumptosPrec (s : State) : Host.Outcome State Fault Refusal :=
  finishText s do
    let b ← requireView s.vIp
    textIpTosPrec s b

/-- IP.DUMPTOS.DSCP (R229). -/
def execIpDumptosDscp (s : State) : Host.Outcome State Fault Refusal :=
  finishText s do
    let b ← requireView s.vIp
    textIpTosDscp s b

/-- IP.DUMPFF (R230). -/
def execIpDumpff (s : State) : Host.Outcome State Fault Refusal :=
  finishText s do
    let b ← requireView s.vIp
    textIpFf s b

/-- IP.DUMPPROTO (R231). -/
def execIpDumpproto (s : State) : Host.Outcome State Fault Refusal :=
  finishText s do
    let b ← requireView s.vIp
    textIpProto s b

/-- IP.DUMPADDR (R232). -/
def execIpDumpaddr (s : State) : Host.Outcome State Fault Refusal :=
  finishText s do
    let b ← requireView s.vIp
    textIpAddr s b

/-- IP.DUMP.PREC (R233). -/
def execIpDumpPrec (s : State) : Host.Outcome State Fault Refusal :=
  finishText s do
    let b ← requireView s.vIp
    textIpAll textIpTosPrec s b

/-- IP.DUMP.DSCP (R233). -/
def execIpDumpDscp (s : State) : Host.Outcome State Fault Refusal :=
  finishText s do
    let b ← requireView s.vIp
    textIpAll textIpTosDscp s b

/-! ### ICMP -/

/-- The summary line of the echo message at `m` with type `t` (R234). -/
def textIcmpEchoSummary (s : State) (m t : Nat) : Except Reason Text := do
  let id ← memRead s (m + 4) 2
  let seq ← memRead s (m + 6) 2
  .ok (line (chars ['i', 'c', 'm', 'p', ' '] ++ typeLabelOrUnknown t
    ++ chars [' ', 'i', 'd', '='] ++ dec id ++ chars [' ', 's', 'e', 'q', '='] ++ dec seq))

/-- The summary line of a message at `m` with type `t` that is no echo (R234). -/
def textIcmpCodeSummary (s : State) (m t : Nat) : Except Reason Text := do
  let c ← memRead s (m + 1) 1
  .ok (line (chars ['i', 'c', 'm', 'p', ' '] ++ typeLabelOrUnknown t
    ++ chars [' ', 'c', 'o', 'd', 'e', '=', '\''] ++ codeLabelOrUnknown t c ++ chars ['\'']
    ++ inParens (prefixedHex2 c)))

/-- ICMP.DUMPS (R234): V_ECHO is not needed, and a failed label lookup prints `unknown`. -/
def execIcmpDumps (s : State) : Host.Outcome State Fault Refusal :=
  finishText s do
    let m ← requireView s.vIcmp
    let t ← memRead s m 1
    if isEcho t then textIcmpEchoSummary s m t else textIcmpCodeSummary s m t

/-- The detail block of the echo message at `m` with type `t` and checksum `cs`, carried by the header at `ipb` (R236). -/
def textIcmpEchoDetail (s : State) (ipb m t cs : Nat) : Except Reason Text := do
  let id ← memRead s (m + 4) 2
  let seq ← memRead s (m + 6) 2
  let n ← echoDataLen s ipb
  let d ← memReadEach s (m + 8) n
  .ok (line (asciiText Config.fmtIcmpType ++ typeLabelOrUnknown t)
    ++ line (asciiText Config.fmtIcmpCsum ++ prefixedHex4 cs)
    ++ line (asciiText Config.fmtIcmpId ++ dec id)
    ++ line (asciiText Config.fmtIcmpSeq ++ dec seq)
    ++ hexdump d)

/-- The detail block of a message at `m` with type `t` and checksum `cs` that is no echo (R236). -/
def textIcmpCodeDetail (s : State) (m t cs : Nat) : Except Reason Text := do
  let c ← memRead s (m + 1) 1
  .ok (line (asciiText Config.fmtIcmpType ++ typeLabelOrUnknown t)
    ++ line (asciiText Config.fmtIcmpCode ++ codeLabelOrUnknown t c ++ inParens (prefixedHex2 c))
    ++ line (asciiText Config.fmtIcmpCsum ++ prefixedHex4 cs))

/-- ICMP.DUMPD (R236): the data's length comes from the IPv4 header's declared sizes, not from LEN. -/
def execIcmpDumpd (s : State) : Host.Outcome State Fault Refusal :=
  finishText s do
    let ipb ← requireView s.vIp
    let m ← requireView s.vIcmp
    let t ← memRead s m 1
    let cs ← memRead s (m + 2) 2
    if isEcho t then textIcmpEchoDetail s ipb m t cs else textIcmpCodeDetail s m t cs

end Sys2Proof.Machine
end

