-- ==== Sys2Proof/Machine/Ethernet.lean ====
section
/-! DEFINITION. The Ethernet frame operations (41_ethernet.md R140 to R144; layout 30_encoding.md R90). -/
namespace Sys2Proof.Machine

/-- ETH.PARSE @A (R140): RES is the offset of the payload; V_IP, V_ICMP and V_ECHO are left as they are. -/
def execEthParse (a : Nat) (s : State) : Host.Outcome State Fault Refusal :=
  finish s do
    requireBuf s
    require (Config.ethHdrLen ≤ available s a) .bufferTooShort
    .ok ({ s with vEth := View.at a }, a + Config.ethHdrLen)

/-- ETH.GET.DST (R141). -/
def execEthGetDst (s : State) : Host.Outcome State Fault Refusal :=
  finishValue s do
    let b ← requireView s.vEth
    memRead s b 6

/-- ETH.GET.SRC (R142). -/
def execEthGetSrc (s : State) : Host.Outcome State Fault Refusal :=
  finishValue s do
    let b ← requireView s.vEth
    memRead s (b + 6) 6

/-- ETH.GET.TYPERAW (R143): the one extractor that depends on HOST_ORDER. -/
def execEthGetTyperaw (s : State) : Host.Outcome State Fault Refusal :=
  finishValue s do
    let b ← requireView s.vEth
    memReadHost16 s (b + 12)

/-- ETH.GET.TYPE (R144). -/
def execEthGetType (s : State) : Host.Outcome State Fault Refusal :=
  finishValue s do
    let b ← requireView s.vEth
    memRead s (b + 12) 2

end Sys2Proof.Machine
end

