-- ==== Sys2Proof/Machine/Icmp.lean ====
section
/-! DEFINITION. The ICMP message operations (43_icmp.md R190 to R201; layouts 30_encoding.md R95, R96). V_ICMP is known to
cover the type byte only; every other byte is checked when it is read (20_memory.md R64). -/
namespace Sys2Proof.Machine

/-! ### Field extractors -/

/-- The `n`-byte field at offset `k` of the message V_ICMP points at. -/
def icmpField (s : State) (k n : Nat) : Except Reason Nat := do
  let b ← requireView s.vIcmp
  memRead s (b + k) n

/-- ICMP.GET.TYPE (R190). -/
def execIcmpGetType (s : State) : Host.Outcome State Fault Refusal :=
  finishValue s (icmpField s 0 1)

/-- ICMP.GET.CODE (R191). -/
def execIcmpGetCode (s : State) : Host.Outcome State Fault Refusal :=
  finishValue s (icmpField s 1 1)

/-- ICMP.GET.CSUM (R192). -/
def execIcmpGetCsum (s : State) : Host.Outcome State Fault Refusal :=
  finishValue s (icmpField s 2 2)

/-! ### Labels and classification -/

/-- ICMP.TYPELBL (R193): RES is the index into TYPE_LABEL. -/
def execIcmpTypelbl (s : State) : Host.Outcome State Fault Refusal :=
  finishValue s do
    let t ← icmpField s 0 1
    require (t ≤ Config.icmpTypeMax) .unknownType
    .ok t

/-- ICMP.ISECHO (R194). -/
def execIcmpIsecho (s : State) : Host.Outcome State Fault Refusal :=
  finishValue s do
    let t ← icmpField s 0 1
    .ok (if isEcho t then 1 else 0)

/-- ICMP.CODELBL (R195): the code byte of an echo message is not read. -/
def execIcmpCodelbl (s : State) : Host.Outcome State Fault Refusal :=
  finishValue s do
    let t ← icmpField s 0 1
    require (isEcho t = false) .notApplicable
    let c ← icmpField s 1 1
    let tbl ← codeTable t c
    .ok (codeTableNumber tbl * 256 + c)

/-- ICMP.CLASS (R197): the code byte is read for the classes 1 to 3 only. -/
def execIcmpClass (s : State) : Host.Outcome State Fault Refusal :=
  finishValue s do
    let t ← icmpField s 0 1
    let cls := icmpClass t
    let sub ← if cls = 1 ∨ cls = 2 ∨ cls = 3 then icmpField s 1 1 else .ok 0
    .ok (sub * 256 + cls)

/-! ### Echo sub-header -/

/-- ICMP.ECHOLOC (R199): it does not check that the echo sub-header lies inside the buffer. -/
def execIcmpEcholoc (s : State) : Host.Outcome State Fault Refusal :=
  finish s do
    let b ← requireView s.vIcmp
    let t ← memRead s b 1
    require (isEcho t = true) .notEcho
    .ok ({ s with vEcho := View.at (b + Config.icmpHdrLen) }, b + Config.icmpHdrLen)

/-- ICMP.GETID (R200): it does not check the type again. -/
def execIcmpGetid (s : State) : Host.Outcome State Fault Refusal :=
  finishValue s do
    let b ← requireView s.vEcho
    memRead s b 2

/-- ICMP.GETSEQ (R201). -/
def execIcmpGetseq (s : State) : Host.Outcome State Fault Refusal :=
  finishValue s do
    let b ← requireView s.vEcho
    memRead s (b + 2) 2

end Sys2Proof.Machine
end

