-- ==== Sys2Proof/Machine/Ipv4.lean ====
section
/-! DEFINITION. The IPv4 header operations (42_ipv4.md R150 to R175; layout 30_encoding.md R91 to R94). -/
namespace Sys2Proof.Machine

/-! ### Template and counter -/

/-- IP.INIT (R150): writes TMPL and sets TMPLV. With TMPLV = 1 it is undefined and the model faults (R293;
93_implementation_defined.md U1; log entry 5). -/
def execIpInit (s : State) : Host.Outcome State Fault Refusal :=
  if s.tmplv then .fault .initTwice
  else finish s (.ok ({ s with tmpl := Config.tmplInit, tmplv := true }, 0))

/-- IP.NEXTID (R157): RES gets SEQ, and SEQ counts on modulo 65536. -/
def execIpNextid (s : State) : Host.Outcome State Fault Refusal :=
  finish s (.ok ({ s with seq := s.seq + 1 }, s.seq.toNat))

/-- IP.TMPLCOPY @A (R154). -/
def execIpTmplcopy (a : Nat) (s : State) : Host.Outcome State Fault Refusal :=
  finish s do
    require (s.tmplv = true) .invalidRef
    requireBuf s
    require (a + Config.ipMinHdr ≤ s.len.toNat) .bufferTooShort
    .ok (s.writeBytes a s.tmpl.toList, 0)

/-! ### Parsing and classification -/

/-- The views after a successful IP.PARSE of a header at `a` with `hb` header bytes and protocol class `cls` (R152): V_ICMP
only for class 1, V_ECHO always dropped. -/
def State.ipViews (s : State) (a hb cls : Nat) : State :=
  { s with
    vIp := View.at a
    vIcmp := if cls = 1 then View.at (a + hb) else View.dropped s.freeDraws
    vEcho := View.dropped (s.freeDraws + 1)
    freeDraws := s.freeDraws + 2 }

/-- IP.PARSE @A (R152): the length before the version, the version before the payload's beginning; `ihl` is not compared
with 5 (R176). -/
def execIpParse (a : Nat) (s : State) : Host.Outcome State Fault Refusal :=
  finish s do
    requireBuf s
    let avail := available s a
    require (Config.ipMinHdr ≤ avail) .bufferTooShort
    let ver ← ipVer s a
    require (ver = 4) .versionMismatch
    let hb ← ipHdrBytes s a
    let p ← ipProto s a
    let cls := protoClass p
    require (cls = 0 ∨ hb < avail) .bufferTooShort
    .ok (s.ipViews a hb cls, cls)

/-- IP.ISV4 @A (R155). -/
def execIpIsv4 (a : Nat) (s : State) : Host.Outcome State Fault Refusal :=
  finishValue s do
    requireBuf s
    let ver ← ipVer s a
    .ok (if ver = 4 then 1 else 0)

/-- IP.ISV6 @A (R156). -/
def execIpIsv6 (a : Nat) (s : State) : Host.Outcome State Fault Refusal :=
  finishValue s do
    requireBuf s
    let ver ← ipVer s a
    .ok (if ver = 6 then 1 else 0)

/-! ### Mutator -/

/-- IP.SETADDR @A (R153): ARG0 to the source address, ARG1 to the destination address; no other byte, no checksum. -/
def execIpSetaddr (a : Nat) (s : State) : Host.Outcome State Fault Refusal :=
  finish s do
    requireBuf s
    require (a + Config.ipMinHdr ≤ s.len.toNat) .bufferTooShort
    let s1 ← memWrite s (a + 12) 4 s.arg0.toNat
    let s2 ← memWrite s1 (a + 16) 4 s.arg1.toNat
    .ok (s2, 0)

/-! ### Payload location and size -/

/-- IP.PAYOFF (R158): relative to the header's first byte. -/
def execIpPayoff (s : State) : Host.Outcome State Fault Refusal :=
  finishValue s do
    let b ← requireView s.vIp
    ipHdrBytes s b

/-- IP.PAYSZ (R159). -/
def execIpPaysz (s : State) : Host.Outcome State Fault Refusal :=
  finishValue s do
    let b ← requireView s.vIp
    payloadSize s b

/-! ### Field extractors (common part R160) -/

/-- The `n`-byte field at offset `k` of the header V_IP points at (R160). -/
def ipField (s : State) (k n : Nat) : Except Reason Nat := do
  let b ← requireView s.vIp
  memRead s (b + k) n

/-- IP.GET.VER (R161). -/
def execIpGetVer (s : State) : Host.Outcome State Fault Refusal :=
  finishValue s do
    let x ← ipField s 0 1
    .ok (slice 7 4 x)

/-- IP.GET.IHL (R162). -/
def execIpGetIhl (s : State) : Host.Outcome State Fault Refusal :=
  finishValue s do
    let x ← ipField s 0 1
    .ok (slice 3 0 x)

/-- IP.GET.TOS (R163). -/
def execIpGetTos (s : State) : Host.Outcome State Fault Refusal :=
  finishValue s (ipField s 1 1)

/-- IP.GET.PREC (R164). -/
def execIpGetPrec (s : State) : Host.Outcome State Fault Refusal :=
  finishValue s do
    let x ← ipField s 1 1
    .ok (slice 7 5 x)

/-- IP.GET.DSCP (R165). -/
def execIpGetDscp (s : State) : Host.Outcome State Fault Refusal :=
  finishValue s do
    let x ← ipField s 1 1
    .ok (slice 7 2 x)

/-- IP.GET.TOTLEN (R166). -/
def execIpGetTotlen (s : State) : Host.Outcome State Fault Refusal :=
  finishValue s (ipField s 2 2)

/-- IP.GET.ID (R167). -/
def execIpGetId (s : State) : Host.Outcome State Fault Refusal :=
  finishValue s (ipField s 4 2)

/-- IP.GET.FLAGSFRAG (R168). -/
def execIpGetFlagsfrag (s : State) : Host.Outcome State Fault Refusal :=
  finishValue s (ipField s 6 2)

/-- IP.GET.FLAGS (R169). -/
def execIpGetFlags (s : State) : Host.Outcome State Fault Refusal :=
  finishValue s do
    let x ← ipField s 6 2
    .ok (slice 15 13 x)

/-- IP.GET.FRAG (R170). -/
def execIpGetFrag (s : State) : Host.Outcome State Fault Refusal :=
  finishValue s do
    let x ← ipField s 6 2
    .ok (slice 12 0 x)

/-- IP.GET.TTL (R171). -/
def execIpGetTtl (s : State) : Host.Outcome State Fault Refusal :=
  finishValue s (ipField s 8 1)

/-- IP.GET.PROTO (R172). -/
def execIpGetProto (s : State) : Host.Outcome State Fault Refusal :=
  finishValue s (ipField s 9 1)

/-- IP.GET.CSUM (R173). -/
def execIpGetCsum (s : State) : Host.Outcome State Fault Refusal :=
  finishValue s (ipField s 10 2)

/-- IP.GET.SRC (R174). -/
def execIpGetSrc (s : State) : Host.Outcome State Fault Refusal :=
  finishValue s (ipField s 12 4)

/-- IP.GET.DST (R175). -/
def execIpGetDst (s : State) : Host.Outcome State Fault Refusal :=
  finishValue s (ipField s 16 4)

end Sys2Proof.Machine
end

