-- ==== Sys2Proof/Machine/Dispatch.lean ====
section
/-! DEFINITION. One arm per instruction: its meaning, by its full name. -/
namespace Sys2Proof.Machine

def exec (i : Instr) (s : State) : Host.Outcome State Fault Refusal :=
  match i with
  | .n2h16 => Sys2Proof.Machine.execN2h16 s
  | .h2n16 => Sys2Proof.Machine.execH2n16 s
  | .n2h32 => Sys2Proof.Machine.execN2h32 s
  | .h2n32 => Sys2Proof.Machine.execH2n32 s
  | .ethParse a => Sys2Proof.Machine.execEthParse a s
  | .ethGetDst => Sys2Proof.Machine.execEthGetDst s
  | .ethGetSrc => Sys2Proof.Machine.execEthGetSrc s
  | .ethGetTyperaw => Sys2Proof.Machine.execEthGetTyperaw s
  | .ethGetType => Sys2Proof.Machine.execEthGetType s
  | .ipInit => Sys2Proof.Machine.execIpInit s
  | .ipParse a => Sys2Proof.Machine.execIpParse a s
  | .ipSetaddr a => Sys2Proof.Machine.execIpSetaddr a s
  | .ipIsv4 a => Sys2Proof.Machine.execIpIsv4 a s
  | .ipIsv6 a => Sys2Proof.Machine.execIpIsv6 a s
  | .ipNextid => Sys2Proof.Machine.execIpNextid s
  | .ipPayoff => Sys2Proof.Machine.execIpPayoff s
  | .ipPaysz => Sys2Proof.Machine.execIpPaysz s
  | .ipTmplcopy a => Sys2Proof.Machine.execIpTmplcopy a s
  | .ipGetVer => Sys2Proof.Machine.execIpGetVer s
  | .ipGetIhl => Sys2Proof.Machine.execIpGetIhl s
  | .ipGetTos => Sys2Proof.Machine.execIpGetTos s
  | .ipGetPrec => Sys2Proof.Machine.execIpGetPrec s
  | .ipGetDscp => Sys2Proof.Machine.execIpGetDscp s
  | .ipGetTotlen => Sys2Proof.Machine.execIpGetTotlen s
  | .ipGetId => Sys2Proof.Machine.execIpGetId s
  | .ipGetFlagsfrag => Sys2Proof.Machine.execIpGetFlagsfrag s
  | .ipGetFlags => Sys2Proof.Machine.execIpGetFlags s
  | .ipGetFrag => Sys2Proof.Machine.execIpGetFrag s
  | .ipGetTtl => Sys2Proof.Machine.execIpGetTtl s
  | .ipGetProto => Sys2Proof.Machine.execIpGetProto s
  | .ipGetCsum => Sys2Proof.Machine.execIpGetCsum s
  | .ipGetSrc => Sys2Proof.Machine.execIpGetSrc s
  | .ipGetDst => Sys2Proof.Machine.execIpGetDst s
  | .icmpGetType => Sys2Proof.Machine.execIcmpGetType s
  | .icmpGetCode => Sys2Proof.Machine.execIcmpGetCode s
  | .icmpGetCsum => Sys2Proof.Machine.execIcmpGetCsum s
  | .icmpTypelbl => Sys2Proof.Machine.execIcmpTypelbl s
  | .icmpCodelbl => Sys2Proof.Machine.execIcmpCodelbl s
  | .icmpIsecho => Sys2Proof.Machine.execIcmpIsecho s
  | .icmpClass => Sys2Proof.Machine.execIcmpClass s
  | .icmpEcholoc => Sys2Proof.Machine.execIcmpEcholoc s
  | .icmpGetid => Sys2Proof.Machine.execIcmpGetid s
  | .icmpGetseq => Sys2Proof.Machine.execIcmpGetseq s
  | .ethDumps => Sys2Proof.Machine.execEthDumps s
  | .ethDumpd => Sys2Proof.Machine.execEthDumpd s
  | .ipDumpPrec => Sys2Proof.Machine.execIpDumpPrec s
  | .ipDumpDscp => Sys2Proof.Machine.execIpDumpDscp s
  | .ipDumpver => Sys2Proof.Machine.execIpDumpver s
  | .ipDumphl => Sys2Proof.Machine.execIpDumphl s
  | .ipDumptosPrec => Sys2Proof.Machine.execIpDumptosPrec s
  | .ipDumptosDscp => Sys2Proof.Machine.execIpDumptosDscp s
  | .ipDumpff => Sys2Proof.Machine.execIpDumpff s
  | .ipDumpproto => Sys2Proof.Machine.execIpDumpproto s
  | .ipDumpaddr => Sys2Proof.Machine.execIpDumpaddr s
  | .icmpDumps => Sys2Proof.Machine.execIcmpDumps s
  | .icmpDumpd => Sys2Proof.Machine.execIcmpDumpd s

end Sys2Proof.Machine
end

