-- ==== Sys2Proof/Machine/HostActions.lean ====
section
/-! DEFINITION. What each host action does (10_state.md R40 to R46), and the reset event (70_reset_and_hazards.md R290). -/
namespace Sys2Proof.Machine

/-- H.LOAD(bytes) (R40). Bytes of BUF at offsets ≥ n become unspecified (log entry 8). A list longer than BUF_SIZE is no
H.LOAD (log entry 4). -/
def hostLoad (bytes : List Byte) (s : State) : Host.Outcome State Fault Refusal :=
  if bytes.length ≤ Config.bufSize then
    .next (State.dropViews
      { s with
        buf := Memory.ofBytes 0 bytes
        bufEpoch := s.bufEpoch + 1
        len := BitVec.ofNat 16 bytes.length
        bufv := true })
  else .refused .loadTooLong

/-- H.RELEASE (R41). -/
def hostRelease (s : State) : Host.Outcome State Fault Refusal :=
  .next (State.dropViews { s with buf := [], bufEpoch := s.bufEpoch + 1, len := 0, bufv := false })

/-- H.WRITE and H.READ are available at offset `i` when BUFV = 1 and i < LEN (R42, R43). -/
def hostReaches (s : State) (i : Nat) : Bool :=
  s.bufv && decide (i < s.len.toNat)

/-- H.WRITE(i, b) (R42): it clears no view. -/
def hostWrite (i : Nat) (b : Byte) (s : State) : Host.Outcome State Fault Refusal :=
  if hostReaches s i then .next (s.writeByte i b) else .refused .writeNotAvailable

/-- H.READ(i) (R43). -/
def hostRead (i : Nat) (s : State) : Host.Outcome State Fault Refusal :=
  if hostReaches s i then .next { s with seen := s.seen ++ [.byte (s.readByte i)] }
  else .refused .readNotAvailable

/-- H.SETARG(k, w) (R44). -/
def hostSetArg (k : Fin 2) (w : BitVec 32) (s : State) : Host.Outcome State Fault Refusal :=
  .next (if k = 0 then { s with arg0 := w } else { s with arg1 := w })

/-- H.CMD(w) (R45): decode, and perform the operation; an illegal word fails with IllegalOp before anything is read
(30_encoding.md R108). -/
def hostCmd (w : BitVec 32) (s : State) : Host.Outcome State Fault Refusal :=
  match decode w with
  | .ok i => exec i s
  | .error _ => .next (s.fail .illegalOp)

/-- H.READRES (R46). -/
def hostReadRes (s : State) : Host.Outcome State Fault Refusal :=
  .next { s with seen := s.seen ++ [.result s.res s.status] }

/-- H.READTXT(k) (R46): the first `k` bytes, all of them if fewer are present. -/
def hostReadTxt (k : Nat) (s : State) : Host.Outcome State Fault Refusal :=
  .next { s with seen := s.seen ++ [.text (s.txt.take k)], txt := s.txt.drop k }

/-- The reset event (70_reset_and_hazards.md R290): every piece of state at its reset value (10_state.md R47). The host's own
side (what it still has to do, what it has seen) is no state of the PHU and stays; BUF's bytes are unspecified anew
(log entries 8, 13). -/
def hostReset (s : State) : Host.Outcome State Fault Refusal :=
  .next { State.reset with
    pending := s.pending
    seen := s.seen
    bufEpoch := s.bufEpoch + 1
    freeDraws := s.freeDraws }

/-- What one event does to the state, the event itself already taken from the queue. -/
def perform (e : HostEvent) (s : State) : Host.Outcome State Fault Refusal :=
  match e with
  | .load bytes => hostLoad bytes s
  | .release => hostRelease s
  | .write i b => hostWrite i b s
  | .read i => hostRead i s
  | .setArg k w => hostSetArg k w s
  | .cmd w => hostCmd w s
  | .readRes => hostReadRes s
  | .readTxt k => hostReadTxt k s
  | .reset => hostReset s

/-- Take the next event from the queue and perform it; with none waiting the unit is idle and keeps all state
(60_exceptions.md R275; log entries 1, 2). -/
def takeEvent (s : State) : Host.Outcome State Fault Refusal :=
  match s.pending with
  | [] => .next s
  | e :: rest => perform e { s with pending := rest }

/-- The state with H.CMD of the command word `w` (its low `nbits` bits) as the next thing the host does (log entry 1). -/
def State.withCommand (s : State) (nbits w : Nat) : State :=
  { s with pending := .cmd (commandWord nbits w) :: s.pending }

end Sys2Proof.Machine
end

