-- ==== Sys2Proof/Machine/Step.lean ====
section
/-! DEFINITION. One step of the machine: the next host action in the one total order of them (20_memory.md R70). -/
namespace Sys2Proof.Machine

/-- One step: the oldest event waiting is performed to its end (00_scope.md R10; 10_state.md R39, R45). -/
def step (s : State) : Host.Outcome State Fault Refusal :=
  takeEvent s

/-- `s` with the command word `w` as the next command the host issues. The PHU does not fetch (10_state.md R21): the host
writes CMD, so the word goes to the front of the host's queue (log entry 1). -/
def State.withFetchWord (s : State) (nbits w : Nat) : State :=
  s.withCommand nbits w

end Sys2Proof.Machine
end

