-- ==== Sys2Proof/Safety.lean ====
section
/-! DEFINITION. What the claims speak of: the invariant of every reachable state, what is visible of a state, the hazard of
IP.INIT, and which instruction may write what. -/
namespace Sys2Proof.Machine

/-- What holds in every state reachable from reset. -/
structure State.Inv (s : State) : Prop where
  /-- BUF is in its canonical form. -/
  bufWf : Memory.wf s.buf
  /-- BUF lists exactly the bytes at the offsets below LEN (10_state.md R30, R40 to R42). -/
  bufListed : ∀ a, (Memory.lookup s.buf a).isSome = true ↔ a < s.len.toNat
  /-- 0 ≤ LEN ≤ BUF_SIZE (10_state.md R28). -/
  lenBound : s.len.toNat ≤ Config.bufSize
  /-- Without a buffer LEN is 0 (10_state.md R41, R47). -/
  lenNoBuf : s.bufv = false → s.len = 0
  /-- 10_state.md R36 (a). -/
  ethView : s.vEth.v = true → s.bufv = true ∧ s.vEth.base.toNat + 14 ≤ s.len.toNat
  /-- 10_state.md R36 (b). -/
  ipView : s.vIp.v = true → s.bufv = true ∧ s.vIp.base.toNat + 20 ≤ s.len.toNat
  /-- 10_state.md R36 (c). -/
  icmpView : s.vIcmp.v = true → s.bufv = true ∧ s.vIcmp.base.toNat < s.len.toNat
  /-- 10_state.md R36 (d): V_ICMP is still the view ICMP.ECHOLOC worked on, since whatever moves it drops V_ECHO. -/
  echoView : s.vEcho.v = true →
    s.bufv = true ∧ s.vIcmp.v = true ∧ s.vEcho.base.toNat = s.vIcmp.base.toNat + 4
  /-- STATUS is 0x00 or that of one of the nine reasons (10_state.md R27; 60_exceptions.md R263). -/
  statusLegal : s.status ∈ [0x00#8, 0x03#8, 0x05#8, 0x07#8, 0x09#8, 0x0B#8, 0x0D#8, 0x0F#8, 0x11#8, 0x13#8]
  /-- Once initialised the template holds TMPL_INIT (10_state.md R34; 42_ipv4.md R150, R154). -/
  tmplFixed : s.tmplv = true → s.tmpl = Config.tmplInit
  /-- Every byte of TXT is 7-bit ASCII (10_state.md R37). -/
  txtAscii : ∀ b ∈ s.txt, b.toNat < 128

/-- Two views no rule can tell apart: the base counts only while `v` = 1 (10_state.md R35). -/
def View.agrees (x y : View) : Prop :=
  x.v = y.v ∧ (x.v = true → x.base = y.base)

/-- Two states that differ at most in what 70_reset_and_hazards.md R291 calls never observable (bytes of BUF at offsets ≥ LEN,
TMPL while TMPLV = 0, view bases while `v` = 0) and in the model's own counters of free values. -/
structure State.SameVisible (s t : State) : Prop where
  arg0 : s.arg0 = t.arg0
  arg1 : s.arg1 = t.arg1
  res : s.res = t.res
  status : s.status = t.status
  len : s.len = t.len
  bufv : s.bufv = t.bufv
  bytes : ∀ a, a < s.len.toNat → s.readByte a = t.readByte a
  seq : s.seq = t.seq
  tmplv : s.tmplv = t.tmplv
  tmpl : s.tmplv = true → s.tmpl = t.tmpl
  vEth : View.agrees s.vEth t.vEth
  vIp : View.agrees s.vIp t.vIp
  vIcmp : View.agrees s.vIcmp t.vIcmp
  vEcho : View.agrees s.vEcho t.vEcho
  txt : s.txt = t.txt
  pending : s.pending = t.pending
  seen : s.seen = t.seen

/-- Two outcomes the host cannot tell apart. -/
def outcomesAgree (o p : Host.Outcome State Fault Refusal) : Prop :=
  match o, p with
  | .next s, .next t => State.SameVisible s t
  | .fault r, .fault q => r = q
  | .refused r, .refused q => r = q
  | .next _, .fault _ => False
  | .next _, .refused _ => False
  | .fault _, .next _ => False
  | .fault _, .refused _ => False
  | .refused _, .next _ => False
  | .refused _, .fault _ => False

/-- The host's discipline of 70_reset_and_hazards.md R293: IP.INIT (the word 0x20000000) at most once between resets.
`started` says whether it has been issued since the last one. -/
def initOnce (started : Bool) : List HostEvent → Bool
  | [] => true
  | .cmd w :: es => if w = 0x20000000#32 then !started && initOnce true es else initOnce started es
  | .reset :: es => initOnce false es
  | .load _ :: es => initOnce started es
  | .release :: es => initOnce started es
  | .write _ _ :: es => initOnce started es
  | .read _ :: es => initOnce started es
  | .setArg _ _ :: es => initOnce started es
  | .readRes :: es => initOnce started es
  | .readTxt _ :: es => initOnce started es

/-- `n` operations `i` one after the other, nothing between them. -/
def repeatExec (i : Instr) : Nat → State → Host.Outcome State Fault Refusal
  | 0, s => .next s
  | n + 1, s =>
    match exec i s with
    | .next t => repeatExec i n t
    | .fault r => .fault r
    | .refused r => .refused r

/-- The operations of `is`, in order. -/
def execAll : List Instr → State → Host.Outcome State Fault Refusal
  | [], s => .next s
  | i :: is, s =>
    match exec i s with
    | .next t => execAll is t
    | .fault r => .fault r
    | .refused r => .refused r

/-- The operations that use V_ETH (60_exceptions.md R264). -/
def ethViewOps : List Instr :=
  [.ethGetDst, .ethGetSrc, .ethGetTyperaw, .ethGetType, .ethDumps, .ethDumpd]

/-- The operations that use V_IP (60_exceptions.md R264). -/
def ipViewOps : List Instr :=
  [.ipPayoff, .ipPaysz, .ipGetVer, .ipGetIhl, .ipGetTos, .ipGetPrec, .ipGetDscp, .ipGetTotlen, .ipGetId, .ipGetFlagsfrag,
   .ipGetFlags, .ipGetFrag, .ipGetTtl, .ipGetProto, .ipGetCsum, .ipGetSrc, .ipGetDst, .ipDumpPrec, .ipDumpDscp,
   .ipDumpver, .ipDumphl, .ipDumptosPrec, .ipDumptosDscp, .ipDumpff, .ipDumpproto, .ipDumpaddr, .icmpDumpd]

/-- The operations that use V_ICMP (60_exceptions.md R264). -/
def icmpViewOps : List Instr :=
  [.icmpGetType, .icmpGetCode, .icmpGetCsum, .icmpTypelbl, .icmpCodelbl, .icmpIsecho, .icmpClass, .icmpEcholoc,
   .icmpDumps, .icmpDumpd]

/-- The operations that use V_ECHO (60_exceptions.md R264). -/
def echoViewOps : List Instr :=
  [.icmpGetid, .icmpGetseq]

/-- The dump operations (44_text_dump.md). -/
def dumpOps : List Instr :=
  [.ethDumps, .ethDumpd, .ipDumpPrec, .ipDumpDscp, .ipDumpver, .ipDumphl, .ipDumptosPrec, .ipDumptosDscp, .ipDumpff,
   .ipDumpproto, .ipDumpaddr, .icmpDumps, .icmpDumpd]

/-- The operations that take a raw reference A (30_encoding.md R104). -/
def rawRefOps (a : Nat) : List Instr :=
  [.ethParse a, .ipParse a, .ipSetaddr a, .ipIsv4 a, .ipIsv6 a, .ipTmplcopy a]

/-- The operation codes of format N (30_encoding.md R106). -/
def formatNOps : List Nat :=
  [0x01, 0x02, 0x03, 0x04, 0x20, 0x25, 0x26, 0x27, 0x31, 0x32, 0x33, 0x34, 0x35, 0x36, 0x37, 0x40, 0x41, 0x43, 0x44,
   0x46, 0x47, 0x48, 0x49, 0x4A]

/-- The operation codes of format A (30_encoding.md R106). -/
def formatAOps : List Nat :=
  [0x10, 0x21, 0x22, 0x23, 0x24, 0x28]

/-- The operation codes of format S, each with the number of its selectors, which run from 0 (30_encoding.md R106, R107). -/
def formatSOps : List (Nat × Nat) :=
  [(0x11, 4), (0x29, 15), (0x30, 3), (0x42, 2), (0x45, 2)]

/-- The four cases of 30_encoding.md R108, on the fields of R100. -/
def illegalFields (op m a : Nat) : Prop :=
  (op ∉ formatNOps ∧ op ∉ formatAOps ∧ op ∉ formatSOps.map Prod.fst)
    ∨ ((op ∈ formatNOps ∨ op ∈ formatSOps.map Prod.fst) ∧ a ≠ 0)
    ∨ ((op ∈ formatNOps ∨ op ∈ formatAOps) ∧ m ≠ 0)
    ∨ ∃ p ∈ formatSOps, p.1 = op ∧ p.2 ≤ m

/-- A command word is illegal (30_encoding.md R108). -/
def illegalWord (w : BitVec 32) : Prop :=
  illegalFields (w.toNat / 2 ^ 24) (w.toNat / 2 ^ 16 % 256) (w.toNat % 2 ^ 16)

end Sys2Proof.Machine
end

