-- ==== Sys2Proof/Certificates/Slice0/Obligations.lean ====
section
/-! DEFINITION. The statements for the provers, from the numbered rules of spec/. A statement that gives a whole next state as
`{ s with … }` states the frame with it: every field not named there, and so every other register and every byte of BUF, is
unchanged. Bytes are read through `State.readByte`, STATUS values are those of 60_exceptions.md R263. -/

open Sys2Proof Sys2Proof.Machine

/-! ### Encoding and decoding -/

/-- Decode and encode agree on every well-formed instruction, the raw reference at every value of its 16 bits
(30_encoding.md R100 to R107). -/
def Obligations.DecodeEncode : Prop :=
  ∀ i : Instr, wellFormed i = true → decode (encode i) = .ok i

/-- A word that decodes is the word of the well-formed instruction it decodes to: no bit of a legal word is dropped, and no two
words or rows overlap (30_encoding.md R110). -/
def Obligations.DecodedWordIsEncoding : Prop :=
  ∀ (w : BitVec 32) (i : Instr), decode w = .ok i → wellFormed i = true ∧ encode i = w

/-- The illegal command words are exactly those of the four cases of 30_encoding.md R108; an illegal word fails with IllegalOp in
every state, writing STATUS and nothing else; every other word runs the operation it decodes to. -/
def Obligations.IllegalCommands : Prop :=
  ∀ w : BitVec 32,
    (illegalWord w → ∀ s, hostCmd w s = .next { s with status := 0x13#8 })
      ∧ (¬ illegalWord w → ∃ i, decode w = .ok i ∧ ∀ s, hostCmd w s = exec i s)

/-- Some words written out from the encoding tables decode to their instructions, one or more of each family
(30_encoding.md R101 to R107). -/
def Obligations.SampleDecodings : Prop :=
  decode 0x01000000#32 = .ok .n2h16 ∧ decode 0x1000FFFF#32 = .ok (.ethParse 65535)
    ∧ decode 0x11020000#32 = .ok .ethGetTyperaw ∧ decode 0x2100000E#32 = .ok (.ipParse 14)
    ∧ decode 0x290E0000#32 = .ok .ipGetDst ∧ decode 0x28000014#32 = .ok (.ipTmplcopy 20)
    ∧ decode 0x36000000#32 = .ok .icmpGetid ∧ decode 0x45010000#32 = .ok .ipDumptosDscp
    ∧ decode 0x4A000000#32 = .ok .icmpDumpd

/-! ### The step -/

/-- A step at a state whose next host action is H.CMD of a word that decodes to the well-formed instruction `i` is `exec i` on the
state with that action taken from the queue (10_state.md R45); and a word placed by `withFetchWord` is what the very next step
runs. The queue and `withFetchWord` are the model's (log entry 1). -/
def Obligations.StepRunsCommand : Prop :=
  (∀ (s : State) (w : BitVec 32) (rest : List HostEvent) (i : Instr),
      s.pending = .cmd w :: rest → decode w = .ok i → wellFormed i = true →
        step s = exec i { s with pending := rest })
    ∧ ∀ (s : State) (nbits w : Nat) (i : Instr),
        decodeTableWord nbits w = some i → step (s.withFetchWord nbits w) = exec i s

/-! ### Byte-order conversion -/

/-- N2H16 and H2N16 always complete: RES is ARG0[15:0], its two bytes exchanged when HOST_ORDER = LE (40_byteorder.md R130,
R131). -/
def Obligations.Convert16Result : Prop :=
  decode 0x01000000#32 = .ok .n2h16 ∧ decode 0x02000000#32 = .ok .h2n16 ∧ ∀ (s : State) (v : Nat),
    v = (if Config.hostOrder = .le then s.arg0.toNat % 256 * 256 + s.arg0.toNat / 256 % 256
         else s.arg0.toNat % 65536) →
      exec .n2h16 s = .next { s with res := BitVec.ofNat 64 v, status := 0 }
        ∧ exec .h2n16 s = .next { s with res := BitVec.ofNat 64 v, status := 0 }

/-- N2H32 and H2N32 always complete: RES is ARG0, its four bytes in reverse order when HOST_ORDER = LE (40_byteorder.md R132,
R133). -/
def Obligations.Convert32Result : Prop :=
  decode 0x03000000#32 = .ok .n2h32 ∧ decode 0x04000000#32 = .ok .h2n32 ∧ ∀ (s : State) (v : Nat),
    v = (if Config.hostOrder = .le then
           s.arg0.toNat % 256 * 2 ^ 24 + s.arg0.toNat / 256 % 256 * 2 ^ 16 + s.arg0.toNat / 2 ^ 16 % 256 * 256
             + s.arg0.toNat / 2 ^ 24
         else s.arg0.toNat) →
      exec .n2h32 s = .next { s with res := BitVec.ofNat 64 v, status := 0 }
        ∧ exec .h2n32 s = .next { s with res := BitVec.ofNat 64 v, status := 0 }

/-- The converters undo each other: N2H of what H2N gave is the value converted, and the reverse, at 16 and at 32 bits
(40_byteorder.md R134 (a)). -/
def Obligations.ConvertersInvolution : Prop :=
  ∀ s : State,
    (∀ p ∈ [(Instr.h2n16, Instr.n2h16), (Instr.n2h16, Instr.h2n16)], ∃ t u,
        exec p.1 s = .next t ∧ exec p.2 { t with arg0 := t.res.setWidth 32 } = .next u
          ∧ u.res.toNat = s.arg0.toNat % 65536)
      ∧ ∀ p ∈ [(Instr.h2n32, Instr.n2h32), (Instr.n2h32, Instr.h2n32)], ∃ t u,
        exec p.1 s = .next t ∧ exec p.2 { t with arg0 := t.res.setWidth 32 } = .next u ∧ u.res.toNat = s.arg0.toNat

/-- N2H16 of what ETH.GET.TYPERAW gave is what ETH.GET.TYPE gives, in both host orders (20_memory.md R62;
40_byteorder.md R134 (c)). -/
def Obligations.RawTypeConverts : Prop :=
  ∀ s : State, s.vEth.v = true → s.vEth.base.toNat + 14 ≤ s.len.toNat →
    ∃ t u w, exec .ethGetTyperaw s = .next t ∧ exec .n2h16 { t with arg0 := t.res.setWidth 32 } = .next u
      ∧ exec .ethGetType s = .next w ∧ u.res = w.res ∧ u.status = 0

/-! ### Ethernet -/

/-- ETH.PARSE: with 14 bytes from A it establishes V_ETH at A and RES is A + 14; without a buffer it fails with InvalidRef, and
with fewer bytes with BufferTooShort (41_ethernet.md R140). -/
def Obligations.EthParse : Prop :=
  ∀ (s : State) (a : Nat),
    (a ≤ 65535 → decode (BitVec.ofNat 32 (0x10000000 + a)) = .ok (.ethParse a))
      ∧ (s.bufv = true → a + 14 ≤ s.len.toNat →
        exec (.ethParse a) s
          = .next { s with vEth := ⟨true, BitVec.ofNat 17 a⟩, res := BitVec.ofNat 64 (a + 14), status := 0 })
      ∧ (s.bufv = false → exec (.ethParse a) s = .next { s with status := 0x11#8 })
      ∧ (s.bufv = true → s.len.toNat < a + 14 → exec (.ethParse a) s = .next { s with status := 0x03#8 })

/-- The Ethernet extractors on an established view with its 14 bytes inside the buffer: the two addresses with their first byte
most significant, the ethertype as a host-order load sees it and as a number (41_ethernet.md R141 to R144). -/
def Obligations.EthExtractors : Prop :=
  ∀ (s : State) (b : Nat), s.vEth.v = true → s.vEth.base.toNat = b → b + 14 ≤ s.len.toNat →
    exec .ethGetDst s = .next { s with
        res := BitVec.ofNat 64 ((s.readByte b).toNat * 256 ^ 5 + (s.readByte (b + 1)).toNat * 256 ^ 4
          + (s.readByte (b + 2)).toNat * 256 ^ 3 + (s.readByte (b + 3)).toNat * 256 ^ 2
          + (s.readByte (b + 4)).toNat * 256 + (s.readByte (b + 5)).toNat),
        status := 0 }
      ∧ exec .ethGetSrc s = .next { s with
        res := BitVec.ofNat 64 ((s.readByte (b + 6)).toNat * 256 ^ 5 + (s.readByte (b + 7)).toNat * 256 ^ 4
          + (s.readByte (b + 8)).toNat * 256 ^ 3 + (s.readByte (b + 9)).toNat * 256 ^ 2
          + (s.readByte (b + 10)).toNat * 256 + (s.readByte (b + 11)).toNat),
        status := 0 }
      ∧ exec .ethGetTyperaw s = .next { s with
        res := BitVec.ofNat 64 (if Config.hostOrder = .be then
            (s.readByte (b + 12)).toNat * 256 + (s.readByte (b + 13)).toNat
          else (s.readByte (b + 13)).toNat * 256 + (s.readByte (b + 12)).toNat),
        status := 0 }
      ∧ exec .ethGetType s = .next { s with
        res := BitVec.ofNat 64 ((s.readByte (b + 12)).toNat * 256 + (s.readByte (b + 13)).toNat), status := 0 }

/-- An operation whose view is not established fails with InvalidRef, writing STATUS alone (10_state.md R35; the InvalidRef
column of 60_exceptions.md R264). -/
def Obligations.AbsentViewFails : Prop :=
  ∀ (s : State) (i : Instr),
    (s.vEth.v = false ∧ i ∈ ethViewOps) ∨ (s.vIp.v = false ∧ i ∈ ipViewOps)
      ∨ (s.vIcmp.v = false ∧ i ∈ icmpViewOps) ∨ (s.vEcho.v = false ∧ i ∈ echoViewOps) →
    exec i s = .next { s with status := 0x11#8 }

/-- An operation that takes a raw reference fails with InvalidRef when there is no buffer, writing STATUS alone
(10_state.md R29; 60_exceptions.md R264). -/
def Obligations.AbsentBufferFails : Prop :=
  ∀ (s : State) (a : Nat) (i : Instr), s.bufv = false → i ∈ rawRefOps a → exec i s = .next { s with status := 0x11#8 }

/-! ### IPv4: template and counter -/

/-- IP.INIT: the first one after reset writes TMPL_INIT and sets TMPLV (42_ipv4.md R150); one with TMPLV = 1 faults
(70_reset_and_hazards.md R293). -/
def Obligations.IpInit : Prop :=
  ∀ s : State,
    (s.tmplv = false →
        exec .ipInit s = .next { s with tmpl := Config.tmplInit, tmplv := true, res := 0, status := 0 })
      ∧ (s.tmplv = true → exec .ipInit s = .fault .initTwice)

/-- IP.NEXTID in every state: RES is SEQ and SEQ counts on, wrapping at 65536; and `n` in a row return SEQ, SEQ + 1, … modulo
65536, so that call `k + 65536` returns what call `k` returned (42_ipv4.md R157). -/
def Obligations.NextidCounts : Prop :=
  decode 0x25000000#32 = .ok .ipNextid
    ∧ (∀ s : State, exec .ipNextid s
        = .next { s with seq := BitVec.ofNat 16 ((s.seq.toNat + 1) % 65536), res := BitVec.ofNat 64 s.seq.toNat, status := 0 })
    ∧ ∀ (n : Nat) (s : State), repeatExec .ipNextid (n + 1) s
        = .next { s with
            seq := BitVec.ofNat 16 ((s.seq.toNat + n + 1) % 65536),
            res := BitVec.ofNat 64 ((s.seq.toNat + n) % 65536),
            status := 0 }

/-- IP.TMPLCOPY with a template, a buffer and 20 bytes from A: the twenty bytes of TMPL stand from A on, every other byte reads
as before, and nothing else but RES and STATUS changes. It fails, in this order, with InvalidRef without a template, InvalidRef
without a buffer, BufferTooShort when 20 bytes do not fit (42_ipv4.md R154). -/
def Obligations.IpTmplcopy : Prop :=
  ∀ (s : State) (a : Nat),
    (a ≤ 65535 → decode (BitVec.ofNat 32 (0x28000000 + a)) = .ok (.ipTmplcopy a))
      ∧ (s.tmplv = true → s.bufv = true → a + 20 ≤ s.len.toNat →
        ∃ t, exec (.ipTmplcopy a) s = .next t
          ∧ (∀ (k : Nat) (hk : k < 20), t.readByte (a + k) = s.tmpl[k])
          ∧ (∀ x, x < a ∨ a + 20 ≤ x → t.readByte x = s.readByte x)
          ∧ t = { s with buf := t.buf, res := 0, status := 0 })
      ∧ (s.tmplv = false → exec (.ipTmplcopy a) s = .next { s with status := 0x11#8 })
      ∧ (s.tmplv = true → s.bufv = false → exec (.ipTmplcopy a) s = .next { s with status := 0x11#8 })
      ∧ (s.tmplv = true → s.bufv = true → s.len.toNat < a + 20 →
          exec (.ipTmplcopy a) s = .next { s with status := 0x03#8 })

/-! ### IPv4: parse, classify, set -/

/-- IP.PARSE of a header with 20 bytes available and version 4, whose payload begins inside the buffer if its protocol is one of
the three: V_IP at A, V_ICMP at the payload for protocol 1 only, V_ECHO dropped, RES the protocol class; only these change (and the
model's own count of free values). The length field is not compared with 5 (42_ipv4.md R152, R176). -/
def Obligations.IpParseCompletes : Prop :=
  ∀ (s : State) (a hb p : Nat), s.bufv = true → a + 20 ≤ s.len.toNat → (s.readByte a).toNat / 16 = 4 →
    hb = 4 * ((s.readByte a).toNat % 16) → p = (s.readByte (a + 9)).toNat →
    (p = 0x01 ∨ p = 0x06 ∨ p = 0x17 → a + hb < s.len.toNat) →
    ∃ t, exec (.ipParse a) s = .next t
      ∧ t.vIp = ⟨true, BitVec.ofNat 17 a⟩
      ∧ (p = 0x01 → t.vIcmp = ⟨true, BitVec.ofNat 17 (a + hb)⟩) ∧ (p ≠ 0x01 → t.vIcmp.v = false)
      ∧ t.vEcho.v = false
      ∧ t.res = (if p = 0x01 then 1 else if p = 0x06 then 2 else if p = 0x17 then 3 else 0)
      ∧ t = { s with vIp := t.vIp, vIcmp := t.vIcmp, vEcho := t.vEcho, freeDraws := t.freeDraws, res := t.res, status := 0 }

/-- IP.PARSE fails, in this order: InvalidRef, BufferTooShort below 20 bytes, VersionMismatch, BufferTooShort when the payload of
one of the three protocols does not begin inside the buffer; STATUS alone is written (42_ipv4.md R152; 60_exceptions.md R265). -/
def Obligations.IpParseFails : Prop :=
  ∀ (s : State) (a : Nat),
    (s.bufv = false → exec (.ipParse a) s = .next { s with status := 0x11#8 })
      ∧ (s.bufv = true → s.len.toNat < a + 20 → exec (.ipParse a) s = .next { s with status := 0x03#8 })
      ∧ (s.bufv = true → a + 20 ≤ s.len.toNat → (s.readByte a).toNat / 16 ≠ 4 →
          exec (.ipParse a) s = .next { s with status := 0x05#8 })
      ∧ (s.bufv = true → a + 20 ≤ s.len.toNat → (s.readByte a).toNat / 16 = 4 →
          ((s.readByte (a + 9)).toNat = 0x01 ∨ (s.readByte (a + 9)).toNat = 0x06 ∨ (s.readByte (a + 9)).toNat = 0x17) →
          s.len.toNat ≤ a + 4 * ((s.readByte a).toNat % 16) →
          exec (.ipParse a) s = .next { s with status := 0x03#8 })

/-- IP.ISV4 and IP.ISV6 read one byte: RES is 1 exactly for version 4, respectively 6, and never for both; without a buffer they
fail with InvalidRef and beyond LEN with BufferTooShort (42_ipv4.md R155, R156). -/
def Obligations.VersionTests : Prop :=
  ∀ (s : State) (a : Nat),
    (a ≤ 65535 → decode (BitVec.ofNat 32 (0x23000000 + a)) = .ok (.ipIsv4 a)
        ∧ decode (BitVec.ofNat 32 (0x24000000 + a)) = .ok (.ipIsv6 a))
      ∧ (s.bufv = true → a < s.len.toNat →
        exec (.ipIsv4 a) s
            = .next { s with res := if (s.readByte a).toNat / 16 = 4 then 1 else 0, status := 0 }
          ∧ exec (.ipIsv6 a) s
            = .next { s with res := if (s.readByte a).toNat / 16 = 6 then 1 else 0, status := 0 })
      ∧ (s.bufv = false →
        exec (.ipIsv4 a) s = .next { s with status := 0x11#8 } ∧ exec (.ipIsv6 a) s = .next { s with status := 0x11#8 })
      ∧ (s.bufv = true → s.len.toNat ≤ a →
        exec (.ipIsv4 a) s = .next { s with status := 0x03#8 } ∧ exec (.ipIsv6 a) s = .next { s with status := 0x03#8 })

/-- IP.SETADDR with a buffer and 20 bytes from A: bytes A + 12 to A + 15 hold ARG0 and A + 16 to A + 19 hold ARG1, most significant
byte first; every other byte reads as before, and nothing else but RES and STATUS changes. Otherwise it fails and no byte changes
(42_ipv4.md R153). -/
def Obligations.IpSetaddr : Prop :=
  ∀ (s : State) (a : Nat),
    (a ≤ 65535 → decode (BitVec.ofNat 32 (0x22000000 + a)) = .ok (.ipSetaddr a))
      ∧ (s.bufv = true → a + 20 ≤ s.len.toNat →
        ∃ t, exec (.ipSetaddr a) s = .next t
          ∧ (∀ k, k < 4 → (t.readByte (a + 12 + k)).toNat = s.arg0.toNat / 256 ^ (3 - k) % 256
              ∧ (t.readByte (a + 16 + k)).toNat = s.arg1.toNat / 256 ^ (3 - k) % 256)
          ∧ (∀ x, x < a + 12 ∨ a + 20 ≤ x → t.readByte x = s.readByte x)
          ∧ t = { s with buf := t.buf, res := 0, status := 0 })
      ∧ (s.bufv = false → exec (.ipSetaddr a) s = .next { s with status := 0x11#8 })
      ∧ (s.bufv = true → s.len.toNat < a + 20 → exec (.ipSetaddr a) s = .next { s with status := 0x03#8 })

/-! ### IPv4: payload and fields -/

/-- IP.PAYOFF and IP.PAYSZ: InvalidRef without a view; on an established view with its 20 bytes inside the buffer (as in every
reachable state) four times the length nibble, and the total length less that, or Inconsistent when it is smaller
(42_ipv4.md R158, R159). -/
def Obligations.IpPayload : Prop :=
  decode 0x26000000#32 = .ok .ipPayoff ∧ decode 0x27000000#32 = .ok .ipPaysz ∧ ∀ (s : State) (b hb tl : Nat),
    (s.vIp.v = false → exec .ipPayoff s = .next { s with status := 0x11#8 }
        ∧ exec .ipPaysz s = .next { s with status := 0x11#8 })
      ∧ (s.vIp.v = true → s.vIp.base.toNat = b → b + 20 ≤ s.len.toNat → hb = 4 * ((s.readByte b).toNat % 16) →
        tl = (s.readByte (b + 2)).toNat * 256 + (s.readByte (b + 3)).toNat →
        exec .ipPayoff s = .next { s with res := BitVec.ofNat 64 hb, status := 0 }
          ∧ (hb ≤ tl → exec .ipPaysz s = .next { s with res := BitVec.ofNat 64 (tl - hb), status := 0 })
          ∧ (tl < hb → exec .ipPaysz s = .next { s with status := 0x0F#8 }))

/-- The IPv4 extractors of fields inside one byte, on an established view with its 20 bytes inside the buffer
(42_ipv4.md R160 to R165, R171, R172). -/
def Obligations.IpByteExtractors : Prop :=
  ∀ (s : State) (b : Nat), s.vIp.v = true → s.vIp.base.toNat = b → b + 20 ≤ s.len.toNat →
    exec .ipGetVer s = .next { s with res := BitVec.ofNat 64 ((s.readByte b).toNat / 16), status := 0 }
      ∧ exec .ipGetIhl s = .next { s with res := BitVec.ofNat 64 ((s.readByte b).toNat % 16), status := 0 }
      ∧ exec .ipGetTos s = .next { s with res := BitVec.ofNat 64 (s.readByte (b + 1)).toNat, status := 0 }
      ∧ exec .ipGetPrec s = .next { s with res := BitVec.ofNat 64 ((s.readByte (b + 1)).toNat / 32), status := 0 }
      ∧ exec .ipGetDscp s = .next { s with res := BitVec.ofNat 64 ((s.readByte (b + 1)).toNat / 4), status := 0 }
      ∧ exec .ipGetTtl s = .next { s with res := BitVec.ofNat 64 (s.readByte (b + 8)).toNat, status := 0 }
      ∧ exec .ipGetProto s = .next { s with res := BitVec.ofNat 64 (s.readByte (b + 9)).toNat, status := 0 }

/-- The IPv4 extractors of 16-bit fields, of the flags and the fragment offset, and of the two addresses (first byte most
significant), on an established view with its 20 bytes inside the buffer (42_ipv4.md R160, R166 to R170, R173 to R175). -/
def Obligations.IpWideExtractors : Prop :=
  ∀ (s : State) (b : Nat), s.vIp.v = true → s.vIp.base.toNat = b → b + 20 ≤ s.len.toNat →
    exec .ipGetTotlen s = .next { s with
        res := BitVec.ofNat 64 ((s.readByte (b + 2)).toNat * 256 + (s.readByte (b + 3)).toNat), status := 0 }
      ∧ exec .ipGetId s = .next { s with
        res := BitVec.ofNat 64 ((s.readByte (b + 4)).toNat * 256 + (s.readByte (b + 5)).toNat), status := 0 }
      ∧ exec .ipGetFlagsfrag s = .next { s with
        res := BitVec.ofNat 64 ((s.readByte (b + 6)).toNat * 256 + (s.readByte (b + 7)).toNat), status := 0 }
      ∧ exec .ipGetFlags s = .next { s with res := BitVec.ofNat 64 ((s.readByte (b + 6)).toNat / 32), status := 0 }
      ∧ exec .ipGetFrag s = .next { s with
        res := BitVec.ofNat 64 ((s.readByte (b + 6)).toNat % 32 * 256 + (s.readByte (b + 7)).toNat), status := 0 }
      ∧ exec .ipGetCsum s = .next { s with
        res := BitVec.ofNat 64 ((s.readByte (b + 10)).toNat * 256 + (s.readByte (b + 11)).toNat), status := 0 }
      ∧ exec .ipGetSrc s = .next { s with
        res := BitVec.ofNat 64 ((s.readByte (b + 12)).toNat * 256 ^ 3 + (s.readByte (b + 13)).toNat * 256 ^ 2
          + (s.readByte (b + 14)).toNat * 256 + (s.readByte (b + 15)).toNat),
        status := 0 }
      ∧ exec .ipGetDst s = .next { s with
        res := BitVec.ofNat 64 ((s.readByte (b + 16)).toNat * 256 ^ 3 + (s.readByte (b + 17)).toNat * 256 ^ 2
          + (s.readByte (b + 18)).toNat * 256 + (s.readByte (b + 19)).toNat),
        status := 0 }

/-! ### ICMP -/

/-- ICMP.GET.TYPE, ICMP.GET.CODE and ICMP.GET.CSUM: InvalidRef without a view; on an established one the field where it lies
inside the buffer (the type always does in a reachable state), BufferTooShort where it does not (43_icmp.md R190 to R192). -/
def Obligations.IcmpExtractors : Prop :=
  decode 0x30000000#32 = .ok .icmpGetType ∧ decode 0x30010000#32 = .ok .icmpGetCode
    ∧ decode 0x30020000#32 = .ok .icmpGetCsum ∧ ∀ (s : State) (m : Nat),
    (s.vIcmp.v = false → exec .icmpGetType s = .next { s with status := 0x11#8 }
        ∧ exec .icmpGetCode s = .next { s with status := 0x11#8 }
        ∧ exec .icmpGetCsum s = .next { s with status := 0x11#8 })
      ∧ (s.vIcmp.v = true → s.vIcmp.base.toNat = m →
        (m + 1 ≤ s.len.toNat →
            exec .icmpGetType s = .next { s with res := BitVec.ofNat 64 (s.readByte m).toNat, status := 0 })
          ∧ (m + 2 ≤ s.len.toNat →
            exec .icmpGetCode s = .next { s with res := BitVec.ofNat 64 (s.readByte (m + 1)).toNat, status := 0 })
          ∧ (s.len.toNat < m + 2 → exec .icmpGetCode s = .next { s with status := 0x03#8 })
          ∧ (m + 4 ≤ s.len.toNat →
            exec .icmpGetCsum s = .next { s with
              res := BitVec.ofNat 64 ((s.readByte (m + 2)).toNat * 256 + (s.readByte (m + 3)).toNat), status := 0 })
          ∧ (s.len.toNat < m + 4 → exec .icmpGetCsum s = .next { s with status := 0x03#8 }))

/-- ICMP.TYPELBL: the type as an index into the label table up to 11, UnknownType above; ICMP.ISECHO: 1 exactly for the types 8
and 0 (43_icmp.md R193, R194). -/
def Obligations.IcmpTypeTests : Prop :=
  ∀ (s : State) (m t : Nat), s.vIcmp.v = true → s.vIcmp.base.toNat = m → m < s.len.toNat → t = (s.readByte m).toNat →
    (t ≤ 11 → exec .icmpTypelbl s = .next { s with res := BitVec.ofNat 64 t, status := 0 })
      ∧ (11 < t → exec .icmpTypelbl s = .next { s with status := 0x07#8 })
      ∧ exec .icmpIsecho s = .next { s with res := if t = 8 ∨ t = 0 then 1 else 0, status := 0 }

/-- ICMP.CODELBL on a message of one of the three table types with its code inside the table: RES is the table times 256 plus the
code (43_icmp.md R195). -/
def Obligations.IcmpCodelblCompletes : Prop :=
  ∀ (s : State) (m t c : Nat), s.vIcmp.v = true → s.vIcmp.base.toNat = m → m + 2 ≤ s.len.toNat →
    t = (s.readByte m).toNat → c = (s.readByte (m + 1)).toNat →
    (t = 3 → c ≤ 15 → exec .icmpCodelbl s = .next { s with res := BitVec.ofNat 64 (1 * 256 + c), status := 0 })
      ∧ (t = 5 → c ≤ Config.redirCodeMax.val →
        exec .icmpCodelbl s = .next { s with res := BitVec.ofNat 64 (2 * 256 + c), status := 0 })
      ∧ (t = 11 → c ≤ Config.timexCodeMax.val →
        exec .icmpCodelbl s = .next { s with res := BitVec.ofNat 64 (3 * 256 + c), status := 0 })

/-- ICMP.CODELBL fails, in this order: NotApplicable on an echo message whether or not its code byte is inside the buffer,
BufferTooShort when the code byte of any other is outside, UnknownCode for a code beyond its table or a type with no table
(43_icmp.md R195; 60_exceptions.md R265). -/
def Obligations.IcmpCodelblFails : Prop :=
  ∀ (s : State) (m t c : Nat), s.vIcmp.v = true → s.vIcmp.base.toNat = m → m < s.len.toNat →
    t = (s.readByte m).toNat → c = (s.readByte (m + 1)).toNat →
    (t = 8 ∨ t = 0 → exec .icmpCodelbl s = .next { s with status := 0x0B#8 })
      ∧ (t ≠ 8 → t ≠ 0 → s.len.toNat < m + 2 → exec .icmpCodelbl s = .next { s with status := 0x03#8 })
      ∧ (t ≠ 8 → t ≠ 0 → m + 2 ≤ s.len.toNat →
          (t = 3 → 15 < c) → (t = 5 → Config.redirCodeMax.val < c) → (t = 11 → Config.timexCodeMax.val < c) →
          exec .icmpCodelbl s = .next { s with status := 0x09#8 })

/-- ICMP.CLASS: class 0 for the types 0 and 8, 4 for a type with no table, neither reading the code; classes 1, 2 and 3 for the
types 3, 5 and 11 with the code in RES[15:8], or BufferTooShort when the code byte is outside the buffer (43_icmp.md R197). -/
def Obligations.IcmpClass : Prop :=
  ∀ (s : State) (m t cls : Nat), s.vIcmp.v = true → s.vIcmp.base.toNat = m → m < s.len.toNat →
    t = (s.readByte m).toNat →
    cls = (if t = 0 ∨ t = 8 then 0 else if t = 3 then 1 else if t = 5 then 2 else if t = 11 then 3 else 4) →
    (cls = 0 ∨ cls = 4 → exec .icmpClass s = .next { s with res := BitVec.ofNat 64 cls, status := 0 })
      ∧ (cls ≠ 0 → cls ≠ 4 → m + 2 ≤ s.len.toNat →
        exec .icmpClass s = .next { s with
          res := BitVec.ofNat 64 ((s.readByte (m + 1)).toNat * 256 + cls), status := 0 })
      ∧ (cls ≠ 0 → cls ≠ 4 → s.len.toNat < m + 2 → exec .icmpClass s = .next { s with status := 0x03#8 })

/-- ICMP.ECHOLOC: on an echo message V_ECHO is established 4 bytes on, whether or not those bytes are inside the buffer, and RES is
that offset; on any other message it fails with NotEcho and V_ECHO stays (43_icmp.md R199). -/
def Obligations.IcmpEcholoc : Prop :=
  ∀ (s : State) (m t : Nat), s.vIcmp.v = true → s.vIcmp.base.toNat = m → m < s.len.toNat → t = (s.readByte m).toNat →
    (t = 8 ∨ t = 0 →
        exec .icmpEcholoc s
          = .next { s with vEcho := ⟨true, BitVec.ofNat 17 (m + 4)⟩, res := BitVec.ofNat 64 (m + 4), status := 0 })
      ∧ (t ≠ 8 → t ≠ 0 → exec .icmpEcholoc s = .next { s with status := 0x0D#8 })

/-- ICMP.GETID and ICMP.GETSEQ: InvalidRef without an echo view; on an established one the two bytes as a number, or
BufferTooShort; the type is not tested again (43_icmp.md R200, R201). -/
def Obligations.IcmpEchoFields : Prop :=
  decode 0x36000000#32 = .ok .icmpGetid ∧ decode 0x37000000#32 = .ok .icmpGetseq ∧ ∀ (s : State) (e : Nat),
    (s.vEcho.v = false → exec .icmpGetid s = .next { s with status := 0x11#8 }
        ∧ exec .icmpGetseq s = .next { s with status := 0x11#8 })
      ∧ (s.vEcho.v = true → s.vEcho.base.toNat = e →
        (e + 2 ≤ s.len.toNat →
            exec .icmpGetid s = .next { s with
              res := BitVec.ofNat 64 ((s.readByte e).toNat * 256 + (s.readByte (e + 1)).toNat), status := 0 })
          ∧ (s.len.toNat < e + 2 → exec .icmpGetid s = .next { s with status := 0x03#8 })
          ∧ (e + 4 ≤ s.len.toNat →
            exec .icmpGetseq s = .next { s with
              res := BitVec.ofNat 64 ((s.readByte (e + 2)).toNat * 256 + (s.readByte (e + 3)).toNat), status := 0 })
          ∧ (s.len.toNat < e + 4 → exec .icmpGetseq s = .next { s with status := 0x03#8 }))

/-! ### Text -/

/-- `hex2` is two lowercase hexadecimal digits of an 8-bit value and `hex4` four of a 16-bit value, leading zeros included: digit
by digit, the characters 0 to 9 and a to f with the digit's value; a hex-prefixed value is 0x and those digits (44_text_dump.md R222). -/
def Obligations.HexFormat : Prop :=
  (∀ v, v < 256 → ∃ d1 d0, hex2 v = [hexDigit d1, hexDigit d0] ∧ d1 < 16 ∧ d0 < 16 ∧ v = d1 * 16 + d0
      ∧ prefixedHex2 v = [0x30#8, 0x78#8, hexDigit d1, hexDigit d0])
    ∧ (∀ v, v < 65536 → ∃ d3 d2 d1 d0, hex4 v = [hexDigit d3, hexDigit d2, hexDigit d1, hexDigit d0]
        ∧ d3 < 16 ∧ d2 < 16 ∧ d1 < 16 ∧ d0 < 16 ∧ v = d3 * 4096 + d2 * 256 + d1 * 16 + d0
        ∧ prefixedHex4 v = [0x30#8, 0x78#8, hexDigit d3, hexDigit d2, hexDigit d1, hexDigit d0])
    ∧ ∀ d, d < 16 → (hexDigit d).toNat = if d < 10 then 0x30 + d else 0x61 + (d - 10)

/-- `dec` writes the decimal form of every number: decimal digits only, their value is the number, and the first is 0 only in the
text of 0 itself (44_text_dump.md R222). -/
def Obligations.DecFormat : Prop :=
  ∀ v : Nat, dec v ≠ [] ∧ (∀ b ∈ dec v, 0x30 ≤ b.toNat ∧ b.toNat ≤ 0x39)
    ∧ (dec v).foldl (fun n b => n * 10 + (b.toNat - 0x30)) 0 = v
    ∧ ((dec v).head? = some 0x30#8 → v = 0 ∧ dec v = [0x30#8])

/-- The hex dump's shape: nothing for no bytes; a whole line of up to eight bytes is its pairs with one space between two pairs and
the line's end; eight bytes followed by more are such a line followed by the dump of the rest (44_text_dump.md R235). -/
def Obligations.HexdumpLines : Prop :=
  hexdump [] = []
    ∧ (∀ a : Byte, hexdump [a] = line (hex2 a.toNat))
    ∧ (∀ a b : Byte, hexdump [a, b] = line (hex2 a.toNat ++ hex2 b.toNat))
    ∧ (∀ (a b : Byte) (d : List Byte), d ≠ [] → d.length ≤ 6 →
        hexdump (a :: b :: d) = hex2 a.toNat ++ hex2 b.toNat ++ chars [' '] ++ hexdump d)
    ∧ ∀ d rest : List Byte, d.length = 8 → hexdump (d ++ rest) = hexdump d ++ hexdump rest

/-- The label table: "echo request" for type 8, "unknown" for the gaps 1, 2, 4, 6, 7, 9, 10 and above 11, the OPEN texts for 0, 3,
5, 11 (43_icmp.md R193; 44_text_dump.md R234). -/
def Obligations.TypeLabels : Prop :=
  typeLabelOrUnknown 8 = chars ['e', 'c', 'h', 'o', ' ', 'r', 'e', 'q', 'u', 'e', 's', 't']
    ∧ typeLabelOrUnknown 0 = asciiText Config.typeLabelEchoReply
    ∧ typeLabelOrUnknown 3 = asciiText Config.typeLabelDestUnreach
    ∧ typeLabelOrUnknown 5 = asciiText Config.typeLabelRedirect
    ∧ typeLabelOrUnknown 11 = asciiText Config.typeLabelTimeExceeded
    ∧ ∀ t, t ∈ [1, 2, 4, 6, 7, 9, 10] ∨ 11 < t →
        typeLabelOrUnknown t = chars ['u', 'n', 'k', 'n', 'o', 'w', 'n']

/-- The code label the ICMP dumps print: UNREACH_LABEL[c] for type 3 and c at most 15, REDIR_LABEL[c] for type 5 and c at most
REDIR_CODE_MAX, TIMEX_LABEL[c] for type 11 and c at most TIMEX_CODE_MAX (the texts and the two maxima are OPEN parameters), and
"unknown" for every other code of these types and for every other type that is no echo (43_icmp.md R195, R196; 44_text_dump.md
R234). -/
def Obligations.CodeLabels : Prop :=
  (∀ c, c ≤ 15 → codeLabelOrUnknown 3 c = asciiText (Config.unreachLabel c))
    ∧ (∀ c, c ≤ Config.redirCodeMax.val → codeLabelOrUnknown 5 c = asciiText (Config.redirLabel c))
    ∧ (∀ c, c ≤ Config.timexCodeMax.val → codeLabelOrUnknown 11 c = asciiText (Config.timexLabel c))
    ∧ ∀ t c, t ≠ 8 → t ≠ 0 → (t = 3 → 15 < c) → (t = 5 → Config.redirCodeMax.val < c) →
        (t = 11 → Config.timexCodeMax.val < c) →
        codeLabelOrUnknown t c = chars ['u', 'n', 'k', 'n', 'o', 'w', 'n']

/-- Every dump operation, whatever it renders, either appends one whole text to TXT, with RES its length in bytes, or fails and
appends nothing; it writes TXT, RES and STATUS only (44_text_dump.md R220, R221). -/
def Obligations.DumpAllOrNothing : Prop :=
  ∀ (i : Instr) (s : State), i ∈ dumpOps →
    (∃ p : Text, exec i s = .next { s with txt := s.txt ++ p, res := BitVec.ofNat 64 p.length, status := 0 })
      ∨ ∃ r : Reason, exec i s = .next { s with status := BitVec.ofNat 8 (1 + 2 * r.code) }

/-- ETH.DUMPS and ETH.DUMPD on an established view with its 14 bytes inside the buffer: the summary with the source address first,
and the detail block (its label texts are parameters) with the ethertype as a number (44_text_dump.md R223 to R225). -/
def Obligations.EthDumps : Prop :=
  ∀ (s : State) (b et : Nat) (dst src : Text), s.vEth.v = true → s.vEth.base.toNat = b → b + 14 ≤ s.len.toNat →
    dst = hex2 (s.readByte b).toNat ++ chars ['-'] ++ hex2 (s.readByte (b + 1)).toNat ++ chars ['-']
      ++ hex2 (s.readByte (b + 2)).toNat ++ chars ['-'] ++ hex2 (s.readByte (b + 3)).toNat ++ chars ['-']
      ++ hex2 (s.readByte (b + 4)).toNat ++ chars ['-'] ++ hex2 (s.readByte (b + 5)).toNat →
    src = hex2 (s.readByte (b + 6)).toNat ++ chars ['-'] ++ hex2 (s.readByte (b + 7)).toNat ++ chars ['-']
      ++ hex2 (s.readByte (b + 8)).toNat ++ chars ['-'] ++ hex2 (s.readByte (b + 9)).toNat ++ chars ['-']
      ++ hex2 (s.readByte (b + 10)).toNat ++ chars ['-'] ++ hex2 (s.readByte (b + 11)).toNat →
    et = (s.readByte (b + 12)).toNat * 256 + (s.readByte (b + 13)).toNat →
    (∃ p, p = chars ['e', 't', 'h', 'e', 'r', ' '] ++ src ++ chars [' ', '>', '>', ' '] ++ dst ++ eol
        ∧ exec .ethDumps s = .next { s with txt := s.txt ++ p, res := BitVec.ofNat 64 p.length, status := 0 })
      ∧ ∃ p, p = asciiText Config.fmtEthDst ++ dst ++ eol ++ (asciiText Config.fmtEthSrc ++ src ++ eol)
          ++ (asciiText Config.fmtEthType ++ dec et ++ chars [' ', '(', '0', 'x'] ++ hex4 et ++ chars [')'] ++ eol)
        ∧ exec .ethDumpd s = .next { s with txt := s.txt ++ p, res := BitVec.ofNat 64 p.length, status := 0 }

/-- IP.DUMPVER, IP.DUMPHL, IP.DUMPTOS.PREC and IP.DUMPTOS.DSCP on an established view with its 20 bytes inside the buffer
(44_text_dump.md R227 to R229). -/
def Obligations.IpDumpFirstParts : Prop :=
  ∀ (s : State) (b x tos : Nat), s.vIp.v = true → s.vIp.base.toNat = b → b + 20 ≤ s.len.toNat →
    x = (s.readByte b).toNat → tos = (s.readByte (b + 1)).toNat →
    (∃ p, p = asciiText Config.fmtIpVer ++ dec (x / 16) ++ eol
        ∧ exec .ipDumpver s = .next { s with txt := s.txt ++ p, res := BitVec.ofNat 64 p.length, status := 0 })
      ∧ (∃ p, p = asciiText Config.fmtIpHl ++ dec (x % 16) ++ chars [' ', '('] ++ dec (4 * (x % 16))
          ++ chars [' ', 'b', 'y', 't', 'e', 's', ')'] ++ eol
        ∧ exec .ipDumphl s = .next { s with txt := s.txt ++ p, res := BitVec.ofNat 64 p.length, status := 0 })
      ∧ (∃ p, p = asciiText Config.fmtIpTos ++ chars ['0', 'x'] ++ hex2 tos
          ++ chars [' ', 'p', 'r', 'e', 'c', 'e', 'd', 'e', 'n', 'c', 'e', ' '] ++ dec (tos / 32) ++ eol
        ∧ exec .ipDumptosPrec s = .next { s with txt := s.txt ++ p, res := BitVec.ofNat 64 p.length, status := 0 })
      ∧ ∃ p, p = asciiText Config.fmtIpTos ++ chars ['0', 'x'] ++ hex2 tos ++ chars [' ', 'd', 's', 'c', 'p', ' ']
          ++ dec (tos / 4) ++ eol
        ∧ exec .ipDumptosDscp s = .next { s with txt := s.txt ++ p, res := BitVec.ofNat 64 p.length, status := 0 }

/-- IP.DUMPFF, IP.DUMPPROTO and IP.DUMPADDR on an established view with its 20 bytes inside the buffer: 0x17 is named udp, 0x11
unknown; the addresses in dotted decimal (44_text_dump.md R226, R230 to R232). -/
def Obligations.IpDumpLastParts : Prop :=
  ∀ (s : State) (b ff p : Nat) (name : Text), s.vIp.v = true → s.vIp.base.toNat = b → b + 20 ≤ s.len.toNat →
    ff = (s.readByte (b + 6)).toNat * 256 + (s.readByte (b + 7)).toNat → p = (s.readByte (b + 9)).toNat →
    name = (if p = 0x01 then chars ['i', 'c', 'm', 'p'] else if p = 0x06 then chars ['t', 'c', 'p']
      else if p = 0x17 then chars ['u', 'd', 'p'] else chars ['u', 'n', 'k', 'n', 'o', 'w', 'n']) →
    (∃ q, q = asciiText Config.fmtIpFlags ++ chars ['0', 'x'] ++ hex2 (ff / 8192) ++ eol
          ++ (asciiText Config.fmtIpFrag ++ dec (ff % 8192) ++ eol)
        ∧ exec .ipDumpff s = .next { s with txt := s.txt ++ q, res := BitVec.ofNat 64 q.length, status := 0 })
      ∧ (∃ q, q = asciiText Config.fmtIpProto ++ name ++ chars [' ', '(', '0', 'x'] ++ hex2 p ++ chars [')'] ++ eol
        ∧ exec .ipDumpproto s = .next { s with txt := s.txt ++ q, res := BitVec.ofNat 64 q.length, status := 0 })
      ∧ ∃ q, q = asciiText Config.fmtIpSrc ++ dec (s.readByte (b + 12)).toNat ++ chars ['.']
            ++ dec (s.readByte (b + 13)).toNat ++ chars ['.'] ++ dec (s.readByte (b + 14)).toNat ++ chars ['.']
            ++ dec (s.readByte (b + 15)).toNat ++ eol
          ++ (asciiText Config.fmtIpDst ++ dec (s.readByte (b + 16)).toNat ++ chars ['.']
            ++ dec (s.readByte (b + 17)).toNat ++ chars ['.'] ++ dec (s.readByte (b + 18)).toNat ++ chars ['.']
            ++ dec (s.readByte (b + 19)).toNat ++ eol)
        ∧ exec .ipDumpaddr s = .next { s with txt := s.txt ++ q, res := BitVec.ofNat 64 q.length, status := 0 }

/-- IP.DUMP.PREC and IP.DUMP.DSCP append exactly what the six part operations append one after the other, and RES is the total
length (44_text_dump.md R233). -/
def Obligations.IpDumpIsItsParts : Prop :=
  ∀ s : State, s.vIp.v = true → s.vIp.base.toNat + 20 ≤ s.len.toNat →
    ∀ p ∈ [(Instr.ipDumpPrec, Instr.ipDumptosPrec), (Instr.ipDumpDscp, Instr.ipDumptosDscp)], ∃ t u q,
      exec p.1 s = .next t
        ∧ execAll [.ipDumpver, .ipDumphl, p.2, .ipDumpff, .ipDumpproto, .ipDumpaddr] s = .next u
        ∧ u.txt = s.txt ++ q
        ∧ t = { s with txt := s.txt ++ q, res := BitVec.ofNat 64 q.length, status := 0 }

/-- The two tos dumps of one header always append different texts, whatever the tos byte (44_text_dump.md R229;
90_conflicts.md C6). -/
def Obligations.TosDumpsDiffer : Prop :=
  ∀ s : State, s.vIp.v = true → s.vIp.base.toNat + 20 ≤ s.len.toNat →
    ∃ t u, exec .ipDumptosPrec s = .next t ∧ exec .ipDumptosDscp s = .next u ∧ t.status = 0 ∧ u.status = 0 ∧ t.txt ≠ u.txt

/-- ICMP.DUMPS: the echo line with identifier and sequence, the line with the code's label for any other message, and
BufferTooShort when a byte it reads is outside the buffer (44_text_dump.md R234). -/
def Obligations.IcmpDumps : Prop :=
  ∀ (s : State) (m t : Nat), s.vIcmp.v = true → s.vIcmp.base.toNat = m → m < s.len.toNat → t = (s.readByte m).toNat →
    (t = 8 ∨ t = 0 → m + 8 ≤ s.len.toNat →
        ∃ p, p = chars ['i', 'c', 'm', 'p', ' '] ++ typeLabelOrUnknown t ++ chars [' ', 'i', 'd', '=']
            ++ dec ((s.readByte (m + 4)).toNat * 256 + (s.readByte (m + 5)).toNat) ++ chars [' ', 's', 'e', 'q', '=']
            ++ dec ((s.readByte (m + 6)).toNat * 256 + (s.readByte (m + 7)).toNat) ++ eol
          ∧ exec .icmpDumps s = .next { s with txt := s.txt ++ p, res := BitVec.ofNat 64 p.length, status := 0 })
      ∧ (t = 8 ∨ t = 0 → s.len.toNat < m + 8 → exec .icmpDumps s = .next { s with status := 0x03#8 })
      ∧ (t ≠ 8 → t ≠ 0 → m + 2 ≤ s.len.toNat →
        ∃ p, p = chars ['i', 'c', 'm', 'p', ' '] ++ typeLabelOrUnknown t
            ++ chars [' ', 'c', 'o', 'd', 'e', '=', '\''] ++ codeLabelOrUnknown t (s.readByte (m + 1)).toNat
            ++ chars ['\'', ' ', '(', '0', 'x'] ++ hex2 (s.readByte (m + 1)).toNat ++ chars [')'] ++ eol
          ∧ exec .icmpDumps s = .next { s with txt := s.txt ++ p, res := BitVec.ofNat 64 p.length, status := 0 })
      ∧ (t ≠ 8 → t ≠ 0 → s.len.toNat < m + 2 → exec .icmpDumps s = .next { s with status := 0x03#8 })

/-- ICMP.DUMPD of an echo message: type, checksum, identifier, sequence, then the hex dump of as many data bytes as the IPv4
header declares (44_text_dump.md R236; 43_icmp.md R198). -/
def Obligations.IcmpDumpdEcho : Prop :=
  ∀ (s : State) (b m t hb tl n : Nat) (d : List Byte), s.vIp.v = true → s.vIp.base.toNat = b → b + 20 ≤ s.len.toNat →
    s.vIcmp.v = true → s.vIcmp.base.toNat = m → m + 8 ≤ s.len.toNat → t = (s.readByte m).toNat → (t = 8 ∨ t = 0) →
    hb = 4 * ((s.readByte b).toNat % 16) → tl = (s.readByte (b + 2)).toNat * 256 + (s.readByte (b + 3)).toNat →
    tl = hb + 8 + n → m + 8 + n ≤ s.len.toNat → d = (List.range n).map (fun k => s.readByte (m + 8 + k)) →
    ∃ p, p = asciiText Config.fmtIcmpType ++ typeLabelOrUnknown t ++ eol
          ++ (asciiText Config.fmtIcmpCsum ++ chars ['0', 'x']
            ++ hex4 ((s.readByte (m + 2)).toNat * 256 + (s.readByte (m + 3)).toNat) ++ eol)
          ++ (asciiText Config.fmtIcmpId ++ dec ((s.readByte (m + 4)).toNat * 256 + (s.readByte (m + 5)).toNat) ++ eol)
          ++ (asciiText Config.fmtIcmpSeq ++ dec ((s.readByte (m + 6)).toNat * 256 + (s.readByte (m + 7)).toNat) ++ eol)
          ++ hexdump d
      ∧ exec .icmpDumpd s = .next { s with txt := s.txt ++ p, res := BitVec.ofNat 64 p.length, status := 0 }

/-- ICMP.DUMPD of a message that is no echo: type, code, checksum (44_text_dump.md R236). -/
def Obligations.IcmpDumpdOther : Prop :=
  ∀ (s : State) (m t c : Nat), s.vIp.v = true → s.vIcmp.v = true → s.vIcmp.base.toNat = m → m + 4 ≤ s.len.toNat →
    t = (s.readByte m).toNat → t ≠ 8 → t ≠ 0 → c = (s.readByte (m + 1)).toNat →
    ∃ p, p = asciiText Config.fmtIcmpType ++ typeLabelOrUnknown t ++ eol
          ++ (asciiText Config.fmtIcmpCode ++ codeLabelOrUnknown t c ++ chars [' ', '(', '0', 'x'] ++ hex2 c ++ chars [')'] ++ eol)
          ++ (asciiText Config.fmtIcmpCsum ++ chars ['0', 'x']
            ++ hex4 ((s.readByte (m + 2)).toNat * 256 + (s.readByte (m + 3)).toNat) ++ eol)
      ∧ exec .icmpDumpd s = .next { s with txt := s.txt ++ p, res := BitVec.ofNat 64 p.length, status := 0 }

/-- ICMP.DUMPD fails, in this order: BufferTooShort when a header byte is outside the buffer; then, for an echo message,
Inconsistent when the declared payload is below 8 bytes or the total length below the header's, and BufferTooShort when the
declared data runs past LEN (44_text_dump.md R236; 60_exceptions.md R265). -/
def Obligations.IcmpDumpdFails : Prop :=
  ∀ (s : State) (b m t hb tl : Nat), s.vIp.v = true → s.vIp.base.toNat = b → b + 20 ≤ s.len.toNat →
    s.vIcmp.v = true → s.vIcmp.base.toNat = m → m < s.len.toNat → t = (s.readByte m).toNat →
    hb = 4 * ((s.readByte b).toNat % 16) → tl = (s.readByte (b + 2)).toNat * 256 + (s.readByte (b + 3)).toNat →
    (s.len.toNat < m + 4 → exec .icmpDumpd s = .next { s with status := 0x03#8 })
      ∧ (t = 8 ∨ t = 0 → s.len.toNat < m + 8 → exec .icmpDumpd s = .next { s with status := 0x03#8 })
      ∧ (t = 8 ∨ t = 0 → m + 8 ≤ s.len.toNat → tl < hb + 8 → exec .icmpDumpd s = .next { s with status := 0x0F#8 })
      ∧ (t = 8 ∨ t = 0 → m + 8 ≤ s.len.toNat → hb + 8 < tl → s.len.toNat < m + (tl - hb) →
        exec .icmpDumpd s = .next { s with status := 0x03#8 })

/-! ### The host's actions -/

/-- H.LOAD of at most BUF_SIZE bytes: BUF holds them from offset 0, LEN is their number, BUFV is 1; H.RELEASE: LEN and BUFV are 0.
After either no view is established, and nothing else of the machine changes but BUF's unspecified bytes, the bases of the
views, which are unspecified, and the model's counters of free values (10_state.md R40, R41). -/
def Obligations.HostLoadRelease : Prop :=
  ∀ (s : State) (rest : List HostEvent),
    (∀ bytes : List Byte, s.pending = .load bytes :: rest → bytes.length ≤ Config.bufSize →
        ∃ t, step s = .next t
          ∧ (∀ (k : Nat) (hk : k < bytes.length), t.readByte k = bytes[k])
          ∧ t.len.toNat = bytes.length ∧ t.bufv = true
          ∧ t.vEth.v = false ∧ t.vIp.v = false ∧ t.vIcmp.v = false ∧ t.vEcho.v = false
          ∧ t = { s with
              pending := rest, buf := t.buf, len := t.len, bufv := t.bufv, vEth := t.vEth, vIp := t.vIp, vIcmp := t.vIcmp,
              vEcho := t.vEcho, bufEpoch := t.bufEpoch, freeDraws := t.freeDraws })
      ∧ (s.pending = .release :: rest →
        ∃ t, step s = .next t ∧ t.len = 0 ∧ t.bufv = false
          ∧ t.vEth.v = false ∧ t.vIp.v = false ∧ t.vIcmp.v = false ∧ t.vEcho.v = false
          ∧ t = { s with
              pending := rest, buf := t.buf, len := t.len, bufv := t.bufv, vEth := t.vEth, vIp := t.vIp, vIcmp := t.vIcmp,
              vEcho := t.vEcho, bufEpoch := t.bufEpoch, freeDraws := t.freeDraws })

/-- H.WRITE with BUFV = 1 and i < LEN sets that byte and changes nothing else, no view in particular; otherwise it is not
available, which the model answers by a refusal (10_state.md R42; log entry 4). -/
def Obligations.HostWrite : Prop :=
  ∀ (s : State) (k : Nat) (v : Byte) (rest : List HostEvent), s.pending = .write k v :: rest →
    (s.bufv = true → k < s.len.toNat →
        ∃ t, step s = .next t ∧ t.readByte k = v ∧ (∀ x, x ≠ k → t.readByte x = s.readByte x)
          ∧ t = { s with pending := rest, buf := t.buf })
      ∧ (s.bufv = false ∨ s.len.toNat ≤ k → step s = .refused .writeNotAvailable)

/-- H.READ with BUFV = 1 and i < LEN returns that byte and changes nothing; otherwise it is not available (10_state.md R43). That the
byte is appended to the record `seen`, the model's own field, and that an action not available is a refusal are the model's
choices (log entries 3 and 4). -/
def Obligations.HostRead : Prop :=
  ∀ (s : State) (k : Nat) (rest : List HostEvent), s.pending = .read k :: rest →
    (s.bufv = true → k < s.len.toNat →
        step s = .next { s with pending := rest, seen := s.seen ++ [.byte (s.readByte k)] })
      ∧ (s.bufv = false ∨ s.len.toNat ≤ k → step s = .refused .readNotAvailable)

/-- H.SETARG(k, w) for k in 0, 1 and any 32-bit w sets ARG[k] and changes nothing else (10_state.md R44). -/
def Obligations.HostSetArg : Prop :=
  ∀ (s : State) (w : BitVec 32) (rest : List HostEvent),
    (s.pending = .setArg 0 w :: rest → step s = .next { s with pending := rest, arg0 := w })
      ∧ (s.pending = .setArg 1 w :: rest → step s = .next { s with pending := rest, arg1 := w })

/-- H.READRES returns RES and STATUS and changes nothing; H.READTXT(k) returns and removes the first `k` bytes of TXT, all of them
if there are fewer, and changes nothing else (10_state.md R46). That what is returned is appended to the record `seen`, the
model's own field, is the model's choice (log entry 3). -/
def Obligations.HostReads : Prop :=
  ∀ (s : State) (k : Nat) (rest : List HostEvent),
    (s.pending = .readRes :: rest →
        step s = .next { s with pending := rest, seen := s.seen ++ [.result s.res s.status] })
      ∧ (s.pending = .readTxt k :: rest →
        ∃ front back, s.txt = front ++ back ∧ front.length = min k s.txt.length
          ∧ step s = .next { s with pending := rest, txt := back, seen := s.seen ++ [.text front] })

/-- The reset event puts every piece of state at its reset value of 10_state.md R47, the unspecified ones apart
(70_reset_and_hazards.md R290). That the host's queue and record go on is the model's choice (log entry 13). -/
def Obligations.ResetEvent : Prop :=
  ∀ (s : State) (rest : List HostEvent), s.pending = .reset :: rest →
    ∃ t, step s = .next t ∧ t.arg0 = 0 ∧ t.arg1 = 0 ∧ t.res = 0 ∧ t.status = 0 ∧ t.len = 0 ∧ t.bufv = false
      ∧ t.seq = Config.seqReset ∧ t.tmplv = false ∧ t.vEth.v = false ∧ t.vIp.v = false ∧ t.vIcmp.v = false
      ∧ t.vEcho.v = false ∧ t.txt = [] ∧ t.pending = rest ∧ t.seen = s.seen

/-- The reset state holds every value 10_state.md R47 gives. -/
def Obligations.ResetValues : Prop :=
  State.reset.arg0 = 0 ∧ State.reset.arg1 = 0 ∧ State.reset.res = 0 ∧ State.reset.status = 0x00#8 ∧ State.reset.len = 0
    ∧ State.reset.bufv = false ∧ State.reset.seq = Config.seqReset ∧ State.reset.tmplv = false
    ∧ State.reset.vEth.v = false ∧ State.reset.vIp.v = false ∧ State.reset.vIcmp.v = false ∧ State.reset.vEcho.v = false
    ∧ State.reset.txt = []

/-! ### The whole machine -/

/-- Every operation, in every state, ends in exactly one of two ways: a success, with STATUS 0x00, or a failure, which writes
STATUS with the code 1 to 9 of its reason and nothing else; the one exception is IP.INIT with TMPLV = 1
(60_exceptions.md R260 to R263). -/
def Obligations.EveryOperationEnds : Prop :=
  ∀ (i : Instr) (s : State), ¬ (i = .ipInit ∧ s.tmplv = true) →
    ∃ t, exec i s = .next t
      ∧ (t.status = 0x00#8 ∨ ∃ k, 1 ≤ k ∧ k ≤ 9 ∧ t = { s with status := BitVec.ofNat 8 (1 + 2 * k) })

/-- Which operation may change which state: SEQ by IP.NEXTID only, TMPL and TMPLV by IP.INIT only, BUF by IP.SETADDR and
IP.TMPLCOPY only and never at or beyond LEN, each view by its parse and locate operations only, TXT by the dump operations only;
ARG0, ARG1, LEN, BUFV and the host's side by none (10_state.md R23, R24, R28, R30, R33 to R37; 90_conflicts.md C5). -/
def Obligations.WhoWritesWhat : Prop :=
  ∀ (i : Instr) (s t : State), exec i s = .next t →
    t.arg0 = s.arg0 ∧ t.arg1 = s.arg1 ∧ t.len = s.len ∧ t.bufv = s.bufv ∧ t.pending = s.pending ∧ t.seen = s.seen
      ∧ (i ≠ .ipNextid → t.seq = s.seq)
      ∧ (i ≠ .ipInit → t.tmpl = s.tmpl ∧ t.tmplv = s.tmplv)
      ∧ ((∀ a, i ≠ .ipSetaddr a ∧ i ≠ .ipTmplcopy a) → ∀ x, t.readByte x = s.readByte x)
      ∧ (∀ x, s.len.toNat ≤ x → t.readByte x = s.readByte x)
      ∧ ((∀ a, i ≠ .ethParse a) → t.vEth = s.vEth)
      ∧ ((∀ a, i ≠ .ipParse a) → t.vIp = s.vIp ∧ t.vIcmp = s.vIcmp)
      ∧ ((∀ a, i ≠ .ipParse a) → i ≠ .icmpEcholoc → t.vEcho = s.vEcho)
      ∧ (i ∉ dumpOps → t.txt = s.txt)

/-- The invariant holds after reset (10_state.md R36, R47). -/
def Obligations.InvariantAtReset : Prop :=
  State.reset.Inv

/-- Every step keeps the invariant, from every state that meets it: BUF in canonical form and listed exactly below LEN, LEN within
BUF_SIZE, the view invariants of 10_state.md R36, STATUS one of its legal values, TMPL fixed once initialised, TXT 7-bit ASCII
(10_state.md R27, R28, R34, R36, R37). That BUF lists exactly the offsets below LEN is the model's form (log entry 8). -/
def Obligations.StepKeepsInvariant : Prop :=
  ∀ s t : State, s.Inv → step s = .next t → t.Inv

/-- The invariants (a) to (d) of the view registers in every state reachable from reset, whatever the host does
(10_state.md R36). -/
def Obligations.ReachableViews : Prop :=
  ∀ (events : List HostEvent) (k : Nat) (t : State),
    Host.Core.run Sys2Proof.core k { State.reset with pending := events } = .next t →
      (t.vEth.v = true → t.bufv = true ∧ t.vEth.base.toNat + 14 ≤ t.len.toNat)
        ∧ (t.vIp.v = true → t.bufv = true ∧ t.vIp.base.toNat + 20 ≤ t.len.toNat)
        ∧ (t.vIcmp.v = true → t.bufv = true ∧ t.vIcmp.base.toNat < t.len.toNat)
        ∧ (t.vEcho.v = true → t.bufv = true ∧ t.vEcho.base.toNat = t.vIcmp.base.toNat + 4)

/-- State that reset leaves unspecified is never observable: two states that differ at most in the bytes of BUF at offsets ≥ LEN,
in TMPL while TMPLV = 0 and in the bases of views that are not established step to states that again differ at most in those, and
what the host has read is the same (70_reset_and_hazards.md R291; 10_state.md R32). -/
def Obligations.UnspecifiedNeverObservable : Prop :=
  ∀ s t : State, State.SameVisible s t → outcomesAgree (step s) (step t)

/-- A host that issues IP.INIT at most once between resets never meets the undefined case: no run of any length faults, from
any state (70_reset_and_hazards.md R293; the fault is the model's treatment, log entry 5). -/
def Obligations.InitOnceNeverFaults : Prop :=
  ∀ (k : Nat) (s : State), initOnce s.tmplv s.pending = true → ∀ r, Host.Core.run Sys2Proof.core k s ≠ .fault r
end

