-- ==== Sys2Proof/Laws/Decode.lean ====
section
/-! SUPPORT. What each part of the decoder can answer (30_encoding.md R101 to R103, R110). -/
namespace Sys2Proof

theorem decodeN_eq_ok (m a : Nat) (i j : Instr) : decodeN m a j = .ok i ↔ a = 0 ∧ m = 0 ∧ j = i := by
  unfold decodeN
  split
  · simp_all
  · split <;> simp_all

theorem decodeA_eq_ok (m a : Nat) (i : Instr) (f : Nat → Instr) : decodeA m a f = .ok i ↔ m = 0 ∧ f a = i := by
  unfold decodeA
  split <;> simp_all

theorem decodeS_eq_ok (m a : Nat) (i : Instr) (row : List Instr) : decodeS m a row = .ok i ↔ a = 0 ∧ row[m]? = some i := by
  unfold decodeS
  split
  · simp_all
  · split <;> simp_all

/-- A word of the N format: the decoder answers exactly when M and A are 0. -/
theorem decodeN_error (m a : Nat) (j : Instr) : (∃ e, decodeN m a j = .error e) ↔ a ≠ 0 ∨ m ≠ 0 := by
  unfold decodeN
  split
  · simp_all
  · split <;> simp_all

/-- A word of the A format: the decoder answers exactly when M is 0. -/
theorem decodeA_error (m a : Nat) (f : Nat → Instr) : (∃ e, decodeA m a f = .error e) ↔ m ≠ 0 := by
  unfold decodeA
  split <;> simp_all

/-- A word of the S format: the decoder answers exactly when A is 0 and the row has the selector M. -/
theorem decodeS_error (m a : Nat) (row : List Instr) :
    (∃ e, decodeS m a row = .error e) ↔ a ≠ 0 ∨ row.length ≤ m := by
  unfold decodeS
  split
  · simp_all
  · split
    · rename_i i hi
      have := (List.getElem?_eq_some_iff.mp hi).1
      simp_all
    · simp_all

/-- Everything the operation table can answer: one row of the N, the A or the S format with the fields of its instructions
(30_encoding.md R106, R107), or a reserved operation code. -/
theorem decodeFields_cases (op m a : Nat) :
    (∃ j, decodeFields op m a = decodeN m a j ∧ j.fields = ⟨op, 0, 0⟩)
      ∨ (∃ f, decodeFields op m a = decodeA m a f ∧ ∀ x, (f x).fields = ⟨op, 0, x⟩)
      ∨ (∃ row, decodeFields op m a = decodeS m a row ∧ ∀ k (hk : k < row.length), (row[k]).fields = ⟨op, k, 0⟩)
      ∨ decodeFields op m a = .error .reservedOp := by
  by_cases h : op ∈ [0x01, 0x02, 0x03, 0x04, 0x10, 0x11, 0x20, 0x21, 0x22, 0x23, 0x24, 0x25, 0x26, 0x27, 0x28, 0x29, 0x30, 0x31, 0x32, 0x33, 0x34, 0x35, 0x36, 0x37, 0x40, 0x41, 0x42, 0x43, 0x44, 0x45, 0x46, 0x47, 0x48, 0x49, 0x4A]
  · simp only [List.mem_cons, List.not_mem_nil, or_false] at h
    rcases h with rfl | rfl | rfl | rfl | rfl | rfl | rfl | rfl | rfl | rfl | rfl | rfl | rfl | rfl | rfl | rfl |
      rfl | rfl | rfl | rfl | rfl | rfl | rfl | rfl | rfl | rfl | rfl | rfl | rfl | rfl | rfl | rfl |
      rfl | rfl | rfl
    all_goals first
      | exact .inl ⟨_, rfl, rfl⟩
      | exact .inr (.inl ⟨_, rfl, fun _ => rfl⟩)
      | exact .inr (.inr (.inl ⟨_, rfl, by decide⟩))
  · right; right; right
    simp only [List.mem_cons, List.not_mem_nil, or_false, not_or] at h
    simp only [decodeFields, h, if_false]

end Sys2Proof
end

