-- ==== Sys2Proof/Laws/State.lean ====
section
/-! SUPPORT. One lemma per field of State per named update, so that no later proof unfolds a record update. -/
namespace Sys2Proof.Machine

/-! ### Success -/

@[simp] theorem State.succeed_arg0 (s : State) (v : Nat) : (s.succeed v).arg0 = s.arg0 := rfl
@[simp] theorem State.succeed_arg1 (s : State) (v : Nat) : (s.succeed v).arg1 = s.arg1 := rfl
@[simp] theorem State.succeed_res (s : State) (v : Nat) : (s.succeed v).res = BitVec.ofNat 64 v := rfl
@[simp] theorem State.succeed_status (s : State) (v : Nat) : (s.succeed v).status = 0 := rfl
@[simp] theorem State.succeed_len (s : State) (v : Nat) : (s.succeed v).len = s.len := rfl
@[simp] theorem State.succeed_bufv (s : State) (v : Nat) : (s.succeed v).bufv = s.bufv := rfl
@[simp] theorem State.succeed_buf (s : State) (v : Nat) : (s.succeed v).buf = s.buf := rfl
@[simp] theorem State.succeed_seq (s : State) (v : Nat) : (s.succeed v).seq = s.seq := rfl
@[simp] theorem State.succeed_tmpl (s : State) (v : Nat) : (s.succeed v).tmpl = s.tmpl := rfl
@[simp] theorem State.succeed_tmplv (s : State) (v : Nat) : (s.succeed v).tmplv = s.tmplv := rfl
@[simp] theorem State.succeed_vEth (s : State) (v : Nat) : (s.succeed v).vEth = s.vEth := rfl
@[simp] theorem State.succeed_vIp (s : State) (v : Nat) : (s.succeed v).vIp = s.vIp := rfl
@[simp] theorem State.succeed_vIcmp (s : State) (v : Nat) : (s.succeed v).vIcmp = s.vIcmp := rfl
@[simp] theorem State.succeed_vEcho (s : State) (v : Nat) : (s.succeed v).vEcho = s.vEcho := rfl
@[simp] theorem State.succeed_txt (s : State) (v : Nat) : (s.succeed v).txt = s.txt := rfl
@[simp] theorem State.succeed_pending (s : State) (v : Nat) : (s.succeed v).pending = s.pending := rfl
@[simp] theorem State.succeed_seen (s : State) (v : Nat) : (s.succeed v).seen = s.seen := rfl
@[simp] theorem State.succeed_bufEpoch (s : State) (v : Nat) : (s.succeed v).bufEpoch = s.bufEpoch := rfl
@[simp] theorem State.succeed_freeDraws (s : State) (v : Nat) : (s.succeed v).freeDraws = s.freeDraws := rfl

/-! ### Failure -/

@[simp] theorem State.fail_arg0 (s : State) (r : Reason) : (s.fail r).arg0 = s.arg0 := rfl
@[simp] theorem State.fail_arg1 (s : State) (r : Reason) : (s.fail r).arg1 = s.arg1 := rfl
@[simp] theorem State.fail_res (s : State) (r : Reason) : (s.fail r).res = s.res := rfl
@[simp] theorem State.fail_status (s : State) (r : Reason) : (s.fail r).status = failStatus r := rfl
@[simp] theorem State.fail_len (s : State) (r : Reason) : (s.fail r).len = s.len := rfl
@[simp] theorem State.fail_bufv (s : State) (r : Reason) : (s.fail r).bufv = s.bufv := rfl
@[simp] theorem State.fail_buf (s : State) (r : Reason) : (s.fail r).buf = s.buf := rfl
@[simp] theorem State.fail_seq (s : State) (r : Reason) : (s.fail r).seq = s.seq := rfl
@[simp] theorem State.fail_tmpl (s : State) (r : Reason) : (s.fail r).tmpl = s.tmpl := rfl
@[simp] theorem State.fail_tmplv (s : State) (r : Reason) : (s.fail r).tmplv = s.tmplv := rfl
@[simp] theorem State.fail_vEth (s : State) (r : Reason) : (s.fail r).vEth = s.vEth := rfl
@[simp] theorem State.fail_vIp (s : State) (r : Reason) : (s.fail r).vIp = s.vIp := rfl
@[simp] theorem State.fail_vIcmp (s : State) (r : Reason) : (s.fail r).vIcmp = s.vIcmp := rfl
@[simp] theorem State.fail_vEcho (s : State) (r : Reason) : (s.fail r).vEcho = s.vEcho := rfl
@[simp] theorem State.fail_txt (s : State) (r : Reason) : (s.fail r).txt = s.txt := rfl
@[simp] theorem State.fail_pending (s : State) (r : Reason) : (s.fail r).pending = s.pending := rfl
@[simp] theorem State.fail_seen (s : State) (r : Reason) : (s.fail r).seen = s.seen := rfl
@[simp] theorem State.fail_bufEpoch (s : State) (r : Reason) : (s.fail r).bufEpoch = s.bufEpoch := rfl
@[simp] theorem State.fail_freeDraws (s : State) (r : Reason) : (s.fail r).freeDraws = s.freeDraws := rfl

/-! ### One byte of BUF written -/

@[simp] theorem State.writeByte_arg0 (s : State) (a : Nat) (b : Byte) : (s.writeByte a b).arg0 = s.arg0 := rfl
@[simp] theorem State.writeByte_arg1 (s : State) (a : Nat) (b : Byte) : (s.writeByte a b).arg1 = s.arg1 := rfl
@[simp] theorem State.writeByte_res (s : State) (a : Nat) (b : Byte) : (s.writeByte a b).res = s.res := rfl
@[simp] theorem State.writeByte_status (s : State) (a : Nat) (b : Byte) : (s.writeByte a b).status = s.status := rfl
@[simp] theorem State.writeByte_len (s : State) (a : Nat) (b : Byte) : (s.writeByte a b).len = s.len := rfl
@[simp] theorem State.writeByte_bufv (s : State) (a : Nat) (b : Byte) : (s.writeByte a b).bufv = s.bufv := rfl
@[simp] theorem State.writeByte_buf (s : State) (a : Nat) (b : Byte) : (s.writeByte a b).buf = Memory.store s.buf a b := rfl
@[simp] theorem State.writeByte_seq (s : State) (a : Nat) (b : Byte) : (s.writeByte a b).seq = s.seq := rfl
@[simp] theorem State.writeByte_tmpl (s : State) (a : Nat) (b : Byte) : (s.writeByte a b).tmpl = s.tmpl := rfl
@[simp] theorem State.writeByte_tmplv (s : State) (a : Nat) (b : Byte) : (s.writeByte a b).tmplv = s.tmplv := rfl
@[simp] theorem State.writeByte_vEth (s : State) (a : Nat) (b : Byte) : (s.writeByte a b).vEth = s.vEth := rfl
@[simp] theorem State.writeByte_vIp (s : State) (a : Nat) (b : Byte) : (s.writeByte a b).vIp = s.vIp := rfl
@[simp] theorem State.writeByte_vIcmp (s : State) (a : Nat) (b : Byte) : (s.writeByte a b).vIcmp = s.vIcmp := rfl
@[simp] theorem State.writeByte_vEcho (s : State) (a : Nat) (b : Byte) : (s.writeByte a b).vEcho = s.vEcho := rfl
@[simp] theorem State.writeByte_txt (s : State) (a : Nat) (b : Byte) : (s.writeByte a b).txt = s.txt := rfl
@[simp] theorem State.writeByte_pending (s : State) (a : Nat) (b : Byte) : (s.writeByte a b).pending = s.pending := rfl
@[simp] theorem State.writeByte_seen (s : State) (a : Nat) (b : Byte) : (s.writeByte a b).seen = s.seen := rfl
@[simp] theorem State.writeByte_bufEpoch (s : State) (a : Nat) (b : Byte) : (s.writeByte a b).bufEpoch = s.bufEpoch := rfl
@[simp] theorem State.writeByte_freeDraws (s : State) (a : Nat) (b : Byte) : (s.writeByte a b).freeDraws = s.freeDraws := rfl

/-! ### All views dropped -/

@[simp] theorem State.dropViews_arg0 (s : State) : (s.dropViews).arg0 = s.arg0 := rfl
@[simp] theorem State.dropViews_arg1 (s : State) : (s.dropViews).arg1 = s.arg1 := rfl
@[simp] theorem State.dropViews_res (s : State) : (s.dropViews).res = s.res := rfl
@[simp] theorem State.dropViews_status (s : State) : (s.dropViews).status = s.status := rfl
@[simp] theorem State.dropViews_len (s : State) : (s.dropViews).len = s.len := rfl
@[simp] theorem State.dropViews_bufv (s : State) : (s.dropViews).bufv = s.bufv := rfl
@[simp] theorem State.dropViews_buf (s : State) : (s.dropViews).buf = s.buf := rfl
@[simp] theorem State.dropViews_seq (s : State) : (s.dropViews).seq = s.seq := rfl
@[simp] theorem State.dropViews_tmpl (s : State) : (s.dropViews).tmpl = s.tmpl := rfl
@[simp] theorem State.dropViews_tmplv (s : State) : (s.dropViews).tmplv = s.tmplv := rfl
@[simp] theorem State.dropViews_vEth (s : State) : (s.dropViews).vEth = View.dropped s.freeDraws := rfl
@[simp] theorem State.dropViews_vIp (s : State) : (s.dropViews).vIp = View.dropped (s.freeDraws + 1) := rfl
@[simp] theorem State.dropViews_vIcmp (s : State) : (s.dropViews).vIcmp = View.dropped (s.freeDraws + 2) := rfl
@[simp] theorem State.dropViews_vEcho (s : State) : (s.dropViews).vEcho = View.dropped (s.freeDraws + 3) := rfl
@[simp] theorem State.dropViews_txt (s : State) : (s.dropViews).txt = s.txt := rfl
@[simp] theorem State.dropViews_pending (s : State) : (s.dropViews).pending = s.pending := rfl
@[simp] theorem State.dropViews_seen (s : State) : (s.dropViews).seen = s.seen := rfl
@[simp] theorem State.dropViews_bufEpoch (s : State) : (s.dropViews).bufEpoch = s.bufEpoch := rfl
@[simp] theorem State.dropViews_freeDraws (s : State) : (s.dropViews).freeDraws = s.freeDraws + 4 := rfl

/-! ### The views after IP.PARSE -/

@[simp] theorem State.ipViews_arg0 (s : State) (a hb cls : Nat) : (s.ipViews a hb cls).arg0 = s.arg0 := rfl
@[simp] theorem State.ipViews_arg1 (s : State) (a hb cls : Nat) : (s.ipViews a hb cls).arg1 = s.arg1 := rfl
@[simp] theorem State.ipViews_res (s : State) (a hb cls : Nat) : (s.ipViews a hb cls).res = s.res := rfl
@[simp] theorem State.ipViews_status (s : State) (a hb cls : Nat) : (s.ipViews a hb cls).status = s.status := rfl
@[simp] theorem State.ipViews_len (s : State) (a hb cls : Nat) : (s.ipViews a hb cls).len = s.len := rfl
@[simp] theorem State.ipViews_bufv (s : State) (a hb cls : Nat) : (s.ipViews a hb cls).bufv = s.bufv := rfl
@[simp] theorem State.ipViews_buf (s : State) (a hb cls : Nat) : (s.ipViews a hb cls).buf = s.buf := rfl
@[simp] theorem State.ipViews_seq (s : State) (a hb cls : Nat) : (s.ipViews a hb cls).seq = s.seq := rfl
@[simp] theorem State.ipViews_tmpl (s : State) (a hb cls : Nat) : (s.ipViews a hb cls).tmpl = s.tmpl := rfl
@[simp] theorem State.ipViews_tmplv (s : State) (a hb cls : Nat) : (s.ipViews a hb cls).tmplv = s.tmplv := rfl
@[simp] theorem State.ipViews_vEth (s : State) (a hb cls : Nat) : (s.ipViews a hb cls).vEth = s.vEth := rfl
@[simp] theorem State.ipViews_vIp (s : State) (a hb cls : Nat) : (s.ipViews a hb cls).vIp = View.at a := rfl
@[simp] theorem State.ipViews_vIcmp (s : State) (a hb cls : Nat) : (s.ipViews a hb cls).vIcmp = if cls = 1 then View.at (a + hb) else View.dropped s.freeDraws := rfl
@[simp] theorem State.ipViews_vEcho (s : State) (a hb cls : Nat) : (s.ipViews a hb cls).vEcho = View.dropped (s.freeDraws + 1) := rfl
@[simp] theorem State.ipViews_txt (s : State) (a hb cls : Nat) : (s.ipViews a hb cls).txt = s.txt := rfl
@[simp] theorem State.ipViews_pending (s : State) (a hb cls : Nat) : (s.ipViews a hb cls).pending = s.pending := rfl
@[simp] theorem State.ipViews_seen (s : State) (a hb cls : Nat) : (s.ipViews a hb cls).seen = s.seen := rfl
@[simp] theorem State.ipViews_bufEpoch (s : State) (a hb cls : Nat) : (s.ipViews a hb cls).bufEpoch = s.bufEpoch := rfl
@[simp] theorem State.ipViews_freeDraws (s : State) (a hb cls : Nat) : (s.ipViews a hb cls).freeDraws = s.freeDraws + 2 := rfl

/-! ### A command placed -/

@[simp] theorem State.withFetchWord_arg0 (s : State) (nbits w : Nat) : (s.withFetchWord nbits w).arg0 = s.arg0 := rfl
@[simp] theorem State.withFetchWord_arg1 (s : State) (nbits w : Nat) : (s.withFetchWord nbits w).arg1 = s.arg1 := rfl
@[simp] theorem State.withFetchWord_res (s : State) (nbits w : Nat) : (s.withFetchWord nbits w).res = s.res := rfl
@[simp] theorem State.withFetchWord_status (s : State) (nbits w : Nat) : (s.withFetchWord nbits w).status = s.status := rfl
@[simp] theorem State.withFetchWord_len (s : State) (nbits w : Nat) : (s.withFetchWord nbits w).len = s.len := rfl
@[simp] theorem State.withFetchWord_bufv (s : State) (nbits w : Nat) : (s.withFetchWord nbits w).bufv = s.bufv := rfl
@[simp] theorem State.withFetchWord_buf (s : State) (nbits w : Nat) : (s.withFetchWord nbits w).buf = s.buf := rfl
@[simp] theorem State.withFetchWord_seq (s : State) (nbits w : Nat) : (s.withFetchWord nbits w).seq = s.seq := rfl
@[simp] theorem State.withFetchWord_tmpl (s : State) (nbits w : Nat) : (s.withFetchWord nbits w).tmpl = s.tmpl := rfl
@[simp] theorem State.withFetchWord_tmplv (s : State) (nbits w : Nat) : (s.withFetchWord nbits w).tmplv = s.tmplv := rfl
@[simp] theorem State.withFetchWord_vEth (s : State) (nbits w : Nat) : (s.withFetchWord nbits w).vEth = s.vEth := rfl
@[simp] theorem State.withFetchWord_vIp (s : State) (nbits w : Nat) : (s.withFetchWord nbits w).vIp = s.vIp := rfl
@[simp] theorem State.withFetchWord_vIcmp (s : State) (nbits w : Nat) : (s.withFetchWord nbits w).vIcmp = s.vIcmp := rfl
@[simp] theorem State.withFetchWord_vEcho (s : State) (nbits w : Nat) : (s.withFetchWord nbits w).vEcho = s.vEcho := rfl
@[simp] theorem State.withFetchWord_txt (s : State) (nbits w : Nat) : (s.withFetchWord nbits w).txt = s.txt := rfl
@[simp] theorem State.withFetchWord_pending (s : State) (nbits w : Nat) : (s.withFetchWord nbits w).pending = .cmd (commandWord nbits w) :: s.pending := rfl
@[simp] theorem State.withFetchWord_seen (s : State) (nbits w : Nat) : (s.withFetchWord nbits w).seen = s.seen := rfl
@[simp] theorem State.withFetchWord_bufEpoch (s : State) (nbits w : Nat) : (s.withFetchWord nbits w).bufEpoch = s.bufEpoch := rfl
@[simp] theorem State.withFetchWord_freeDraws (s : State) (nbits w : Nat) : (s.withFetchWord nbits w).freeDraws = s.freeDraws := rfl

/-! ### Several bytes of BUF written: everything but BUF stays -/

theorem State.writeBytes_eq (s : State) (a : Nat) (bs : List Byte) :
    s.writeBytes a bs = { s with buf := (s.writeBytes a bs).buf } := by
  induction bs generalizing s a with
  | nil => rfl
  | cons b bs ih => rw [State.writeBytes, ih]; rfl

@[simp] theorem State.writeBytes_arg0 (s : State) (a : Nat) (bs : List Byte) : (s.writeBytes a bs).arg0 = s.arg0 := by
  rw [State.writeBytes_eq]
@[simp] theorem State.writeBytes_arg1 (s : State) (a : Nat) (bs : List Byte) : (s.writeBytes a bs).arg1 = s.arg1 := by
  rw [State.writeBytes_eq]
@[simp] theorem State.writeBytes_res (s : State) (a : Nat) (bs : List Byte) : (s.writeBytes a bs).res = s.res := by
  rw [State.writeBytes_eq]
@[simp] theorem State.writeBytes_status (s : State) (a : Nat) (bs : List Byte) : (s.writeBytes a bs).status = s.status := by
  rw [State.writeBytes_eq]
@[simp] theorem State.writeBytes_len (s : State) (a : Nat) (bs : List Byte) : (s.writeBytes a bs).len = s.len := by
  rw [State.writeBytes_eq]
@[simp] theorem State.writeBytes_bufv (s : State) (a : Nat) (bs : List Byte) : (s.writeBytes a bs).bufv = s.bufv := by
  rw [State.writeBytes_eq]
@[simp] theorem State.writeBytes_seq (s : State) (a : Nat) (bs : List Byte) : (s.writeBytes a bs).seq = s.seq := by
  rw [State.writeBytes_eq]
@[simp] theorem State.writeBytes_tmpl (s : State) (a : Nat) (bs : List Byte) : (s.writeBytes a bs).tmpl = s.tmpl := by
  rw [State.writeBytes_eq]
@[simp] theorem State.writeBytes_tmplv (s : State) (a : Nat) (bs : List Byte) : (s.writeBytes a bs).tmplv = s.tmplv := by
  rw [State.writeBytes_eq]
@[simp] theorem State.writeBytes_vEth (s : State) (a : Nat) (bs : List Byte) : (s.writeBytes a bs).vEth = s.vEth := by
  rw [State.writeBytes_eq]
@[simp] theorem State.writeBytes_vIp (s : State) (a : Nat) (bs : List Byte) : (s.writeBytes a bs).vIp = s.vIp := by
  rw [State.writeBytes_eq]
@[simp] theorem State.writeBytes_vIcmp (s : State) (a : Nat) (bs : List Byte) : (s.writeBytes a bs).vIcmp = s.vIcmp := by
  rw [State.writeBytes_eq]
@[simp] theorem State.writeBytes_vEcho (s : State) (a : Nat) (bs : List Byte) : (s.writeBytes a bs).vEcho = s.vEcho := by
  rw [State.writeBytes_eq]
@[simp] theorem State.writeBytes_txt (s : State) (a : Nat) (bs : List Byte) : (s.writeBytes a bs).txt = s.txt := by
  rw [State.writeBytes_eq]
@[simp] theorem State.writeBytes_pending (s : State) (a : Nat) (bs : List Byte) : (s.writeBytes a bs).pending = s.pending := by
  rw [State.writeBytes_eq]
@[simp] theorem State.writeBytes_seen (s : State) (a : Nat) (bs : List Byte) : (s.writeBytes a bs).seen = s.seen := by
  rw [State.writeBytes_eq]
@[simp] theorem State.writeBytes_bufEpoch (s : State) (a : Nat) (bs : List Byte) : (s.writeBytes a bs).bufEpoch = s.bufEpoch := by
  rw [State.writeBytes_eq]
@[simp] theorem State.writeBytes_freeDraws (s : State) (a : Nat) (bs : List Byte) : (s.writeBytes a bs).freeDraws = s.freeDraws := by
  rw [State.writeBytes_eq]

/-! ### Views -/

@[simp] theorem View.at_v (b : Nat) : (View.at b).v = true := rfl
@[simp] theorem View.at_base (b : Nat) : (View.at b).base = BitVec.ofNat 17 b := rfl
@[simp] theorem View.dropped_v (k : Nat) : (View.dropped k).v = false := rfl

/-- A base that fits 17 bits is stored unchanged (10_state.md R35). -/
theorem View.at_base_toNat (b : Nat) (h : b < 2 ^ 17) : (View.at b).base.toNat = b := by
  rw [View.at, BitVec.toNat_ofNat, Nat.mod_eq_of_lt h]

end Sys2Proof.Machine
end

