-- ==== Sys2Proof/Laws/Ops.lean ====
section
/-! SUPPORT. What each shared operation can do, said once: byte memory and its canonical form, checked reads and writes, and
how an operation ends. -/
namespace Sys2Proof.Machine

/-! ### Byte memory: read after write, and the canonical form -/

theorem Memory.lookup_store_same (m : Memory) (a : Nat) (b : Byte) : Memory.lookup (Memory.store m a b) a = some b := by
  induction m with
  | nil => simp [Memory.store, Memory.lookup]
  | cons p rest ih =>
    obtain ⟨k, c⟩ := p
    simp only [Memory.store]
    split
    · simp [Memory.lookup]
    · split
      · simp [Memory.lookup]
      · rename_i h1 h2
        simp [Memory.lookup, Ne.symm h2, ih]

theorem Memory.lookup_store_other (m : Memory) (a x : Nat) (b : Byte) (h : x ≠ a) :
    Memory.lookup (Memory.store m a b) x = Memory.lookup m x := by
  induction m with
  | nil => simp [Memory.store, Memory.lookup, Ne.symm h]
  | cons p rest ih =>
    obtain ⟨k, c⟩ := p
    simp only [Memory.store]
    split
    · simp [Memory.lookup, Ne.symm h]
    · split
      · rename_i h1 h2
        subst h2
        simp [Memory.lookup, Ne.symm h]
      · simp [Memory.lookup, ih]

theorem Memory.mem_store (m : Memory) (a : Nat) (b : Byte) (p : Host.Cell) (h : p ∈ Memory.store m a b) :
    p = (a, b) ∨ p ∈ m := by
  induction m with
  | nil => simpa [Memory.store] using h
  | cons q rest ih =>
    obtain ⟨k, c⟩ := q
    simp only [Memory.store] at h
    split at h
    · simpa using h
    · split at h
      · simp only [List.mem_cons] at h ⊢
        tauto
      · simp only [List.mem_cons] at h ⊢
        rcases h with h | h
        · tauto
        · rcases ih h with h | h <;> tauto

/-- A write keeps the canonical form. -/
theorem Memory.store_wf (m : Memory) (a : Nat) (b : Byte) (h : Memory.wf m) : Memory.wf (Memory.store m a b) := by
  induction m with
  | nil => simp [Memory.store, Memory.wf]
  | cons p rest ih =>
    obtain ⟨k, c⟩ := p
    obtain ⟨hk, hr⟩ := List.pairwise_cons.mp h
    simp only [Memory.store]
    split
    · rename_i hlt
      refine List.pairwise_cons.mpr ⟨fun q hq => ?_, h⟩
      rcases List.mem_cons.mp hq with rfl | hq
      · exact hlt
      · exact Nat.lt_trans hlt (hk q hq)
    · split
      · rename_i _ heq
        subst heq
        exact List.pairwise_cons.mpr ⟨hk, hr⟩
      · rename_i h1 h2
        refine List.pairwise_cons.mpr ⟨fun q hq => ?_, ih hr⟩
        rcases Memory.mem_store rest a b q hq with rfl | hq
        · change k < a
          omega
        · exact hk q hq

theorem Memory.lookup_ofBytes (bs : List Byte) (i a : Nat) :
    Memory.lookup (Memory.ofBytes i bs) a = if i ≤ a then bs[a - i]? else none := by
  induction bs generalizing i with
  | nil => simp [Memory.ofBytes, Memory.lookup]
  | cons b bs ih =>
    simp only [Memory.ofBytes, Memory.lookup, ih]
    by_cases h : i = a
    · simp [h]
    · by_cases h2 : i ≤ a
      · have e : a - i = (a - (i + 1)) + 1 := by omega
        simp [h, h2, e, show i + 1 ≤ a by omega]
      · simp [h, h2, show ¬ i + 1 ≤ a by omega]

theorem Memory.ofBytes_ge (bs : List Byte) (i : Nat) : ∀ p ∈ Memory.ofBytes i bs, i ≤ p.1 := by
  induction bs generalizing i with
  | nil => simp [Memory.ofBytes]
  | cons b bs ih =>
    intro p hp
    rcases List.mem_cons.mp hp with rfl | hp
    · exact Nat.le_refl i
    · exact Nat.le_of_succ_le (ih (i + 1) p hp)

/-- A loaded buffer is in the canonical form. -/
theorem Memory.ofBytes_wf (bs : List Byte) (i : Nat) : Memory.wf (Memory.ofBytes i bs) := by
  induction bs generalizing i with
  | nil => simp [Memory.ofBytes, Memory.wf]
  | cons b bs ih =>
    exact List.pairwise_cons.mpr ⟨fun p hp => Memory.ofBytes_ge bs (i + 1) p hp, ih (i + 1)⟩

theorem State.readByte_writeByte (s : State) (a x : Nat) (b : Byte) :
    (s.writeByte a b).readByte x = if x = a then b else s.readByte x := by
  by_cases h : x = a
  · subst h; simp [State.readByte, Memory.lookup_store_same]
  · simp [State.readByte, Memory.lookup_store_other _ _ _ _ h, h]

/-- What a read gives after several bytes have been written: the byte written there, or the byte before. -/
theorem State.readByte_writeBytes (s : State) (a x : Nat) (bs : List Byte) :
    (s.writeBytes a bs).readByte x
      = if h : a ≤ x ∧ x - a < bs.length then bs[x - a]'h.2 else s.readByte x := by
  induction bs generalizing s a with
  | nil => simp [State.writeBytes]
  | cons b bs ih =>
    rw [State.writeBytes, ih]
    by_cases h : x = a
    · subst h
      simp [State.readByte_writeByte, show ¬ (x + 1 ≤ x) by omega]
    · by_cases h2 : a + 1 ≤ x
      · have e : x - a = (x - (a + 1)) + 1 := by omega
        simp [h2, show a ≤ x by omega, e, State.readByte_writeByte, h]
      · simp [h2, show ¬ a ≤ x by omega, State.readByte_writeByte, h]

theorem State.writeBytes_wf (s : State) (a : Nat) (bs : List Byte) (h : Memory.wf s.buf) :
    Memory.wf (s.writeBytes a bs).buf := by
  induction bs generalizing s a with
  | nil => exact h
  | cons b bs ih => exact ih _ _ (Memory.store_wf _ _ _ h)

/-- Writing below LEN lists no new offset when every offset below LEN is listed. -/
theorem State.writeBytes_lookup_isSome (s : State) (a : Nat) (bs : List Byte) (x : Nat) :
    (Memory.lookup (s.writeBytes a bs).buf x).isSome
      = ((Memory.lookup s.buf x).isSome || decide (a ≤ x ∧ x < a + bs.length)) := by
  induction bs generalizing s a with
  | nil => simp [State.writeBytes]
  | cons b bs ih =>
    rw [State.writeBytes, ih]
    by_cases h : x = a
    · subst h; simp [Memory.lookup_store_same]
    · rw [State.writeByte_buf, Memory.lookup_store_other _ _ _ _ h]
      congr 1
      simp only [List.length_cons]
      apply decide_eq_decide.mpr
      omega

/-! ### Multi-byte values -/

/-- An `n`-byte value fits `n` bytes. -/
theorem State.readBE_lt (s : State) (a n : Nat) : s.readBE a n < 256 ^ n := by
  induction n generalizing a with
  | zero => simp [State.readBE]
  | succ n ih =>
    have h1 := (s.readByte a).isLt
    have h2 := ih (a + 1)
    rw [State.readBE, pow_succ]
    have : (s.readByte a).toNat * 256 ^ n ≤ 255 * 256 ^ n := Nat.mul_le_mul_right _ (by omega)
    omega

@[simp] theorem State.readBE_one (s : State) (a : Nat) : s.readBE a 1 = (s.readByte a).toNat := by
  simp [State.readBE]

@[simp] theorem State.readBE_two (s : State) (a : Nat) :
    s.readBE a 2 = (s.readByte a).toNat * 256 + (s.readByte (a + 1)).toNat := by
  simp [State.readBE]

@[simp] theorem State.readBytes_length (s : State) (a n : Nat) : (s.readBytes a n).length = n := by
  induction n generalizing a with
  | zero => rfl
  | succ n ih => simp [State.readBytes, ih]

@[simp] theorem beBytes_length (v n : Nat) : (beBytes v n).length = n := by
  induction n with
  | zero => rfl
  | succ n ih => simp [beBytes, ih]

/-- A read depends on the bytes it covers alone. -/
theorem State.readBE_congr (s t : State) (a n : Nat) (h : ∀ x, a ≤ x → x < a + n → s.readByte x = t.readByte x) :
    s.readBE a n = t.readBE a n := by
  induction n generalizing a with
  | zero => rfl
  | succ n ih =>
    rw [State.readBE, State.readBE, h a (Nat.le_refl a) (by omega),
      ih (a + 1) (fun x h1 h2 => h x (by omega) (by omega))]

theorem State.readBytes_congr (s t : State) (a n : Nat) (h : ∀ x, a ≤ x → x < a + n → s.readByte x = t.readByte x) :
    s.readBytes a n = t.readBytes a n := by
  induction n generalizing a with
  | zero => rfl
  | succ n ih =>
    rw [State.readBytes, State.readBytes, h a (Nat.le_refl a) (by omega),
      ih (a + 1) (fun x h1 h2 => h x (by omega) (by omega))]

/-! ### Checked access: when it answers, and what -/

theorem memRead_ok (s : State) (a n : Nat) (h : a + n ≤ s.len.toNat) : memRead s a n = .ok (s.readBE a n) := by
  simp [memRead, h]

theorem memRead_short (s : State) (a n : Nat) (h : s.len.toNat < a + n) : memRead s a n = .error .bufferTooShort := by
  simp [memRead, Nat.not_le.mpr h]

theorem memRead_eq_ok (s : State) (a n v : Nat) :
    memRead s a n = .ok v ↔ a + n ≤ s.len.toNat ∧ s.readBE a n = v := by
  unfold memRead; split <;> simp_all

theorem memReadBytes_ok (s : State) (a n : Nat) (h : a + n ≤ s.len.toNat) :
    memReadBytes s a n = .ok (s.readBytes a n) := by
  simp [memReadBytes, h]

theorem memReadBytes_eq_ok (s : State) (a n : Nat) (bs : List Byte) :
    memReadBytes s a n = .ok bs ↔ a + n ≤ s.len.toNat ∧ s.readBytes a n = bs := by
  unfold memReadBytes; split <;> simp_all

theorem memReadHost16_eq_ok (s : State) (a v : Nat) :
    memReadHost16 s a = .ok v ↔
      a + 2 ≤ s.len.toNat ∧ hostLoad16 Config.hostOrder (s.readByte a) (s.readByte (a + 1)) = v := by
  unfold memReadHost16; split <;> simp_all

theorem memWrite_eq_ok (s t : State) (a n v : Nat) :
    memWrite s a n v = .ok t ↔ a + n ≤ s.len.toNat ∧ s.writeBytes a (beBytes v n) = t := by
  unfold memWrite; split <;> simp_all

/-- The byte-by-byte checked read answers the bytes there are, or BufferTooShort. -/
theorem memReadEach_eq (s : State) (a n : Nat) :
    memReadEach s a n
      = if n = 0 ∨ a + n ≤ s.len.toNat then .ok (s.readBytes a n) else .error .bufferTooShort := by
  induction n generalizing a with
  | zero => simp [memReadEach, State.readBytes]
  | succ n ih =>
    rw [memReadEach, ih]
    by_cases h : a + 1 ≤ s.len.toNat
    · by_cases h2 : a + (n + 1) ≤ s.len.toNat
      · have h3 : a + 1 + n ≤ s.len.toNat := by omega
        simp [memRead, h, h2, h3, bind, Except.bind, State.readBytes]
      · have h3 : ¬ a + 1 + n ≤ s.len.toNat := by omega
        have h4 : n ≠ 0 := by omega
        simp [memRead, h, h2, h3, h4, bind, Except.bind]
    · have h2 : ¬ a + (n + 1) ≤ s.len.toNat := by omega
      simp [memRead, h, h2, bind, Except.bind]

theorem require_eq_ok (c : Prop) [Decidable c] (r : Reason) (u : Unit) : require c r = .ok u ↔ c := by
  unfold require; split <;> simp_all

theorem require_eq_error (c : Prop) [Decidable c] (r e : Reason) : require c r = .error e ↔ ¬ c ∧ r = e := by
  unfold require; split <;> simp_all

theorem requireView_eq_ok (w : View) (b : Nat) : requireView w = .ok b ↔ w.v = true ∧ w.base.toNat = b := by
  unfold requireView; split <;> simp_all

theorem requireView_invalid (w : View) (h : w.v = false) : requireView w = .error .invalidRef := by
  simp [requireView, h]

theorem requireBuf_absent (s : State) (h : s.bufv = false) : requireBuf s = .error .invalidRef := by
  simp [requireBuf, require, h]

/-- A sequence of checks and reads answers when both parts do. -/
theorem bind_eq_ok {α β : Type} (x : Except Reason α) (f : α → Except Reason β) (b : β) :
    (x >>= f) = .ok b ↔ ∃ a, x = .ok a ∧ f a = .ok b := by
  cases x <;> simp [bind, Except.bind]

/-! ### How an operation ends -/

/-- Everything the end of an operation can answer: success with the writes made, or failure with STATUS alone written. -/
theorem finish_next (s t : State) (r : Except Reason (State × Nat)) (h : finish s r = .next t) :
    (∃ u v, r = .ok (u, v) ∧ t = u.succeed v) ∨ ∃ e, r = .error e ∧ t = s.fail e := by
  match r, h with
  | .ok (u, v), h => exact .inl ⟨u, v, rfl, by simpa [finish] using h.symm⟩
  | .error e, h => exact .inr ⟨e, rfl, by simpa [finish] using h.symm⟩

theorem finishValue_next (s t : State) (r : Except Reason Nat) (h : finishValue s r = .next t) :
    (∃ v, r = .ok v ∧ t = s.succeed v) ∨ ∃ e, r = .error e ∧ t = s.fail e := by
  match r, h with
  | .ok v, h => exact .inl ⟨v, rfl, by simpa [finishValue] using h.symm⟩
  | .error e, h => exact .inr ⟨e, rfl, by simpa [finishValue] using h.symm⟩

theorem finishText_next (s t : State) (r : Except Reason Text) (h : finishText s r = .next t) :
    (∃ p, r = .ok p ∧ t = State.succeed { s with txt := s.txt ++ p } p.length) ∨ ∃ e, r = .error e ∧ t = s.fail e := by
  match r, h with
  | .ok p, h => exact .inl ⟨p, rfl, by simpa [finishText] using h.symm⟩
  | .error e, h => exact .inr ⟨e, rfl, by simpa [finishText] using h.symm⟩

/-- The end of an operation is always a next state. -/
theorem finish_total (s : State) (r : Except Reason (State × Nat)) : ∃ t, finish s r = .next t := by
  match r with
  | .ok (u, v) => exact ⟨_, rfl⟩
  | .error e => exact ⟨_, rfl⟩

theorem finishValue_total (s : State) (r : Except Reason Nat) : ∃ t, finishValue s r = .next t := by
  match r with
  | .ok v => exact ⟨_, rfl⟩
  | .error e => exact ⟨_, rfl⟩

theorem finishText_total (s : State) (r : Except Reason Text) : ∃ t, finishText s r = .next t := by
  match r with
  | .ok p => exact ⟨_, rfl⟩
  | .error e => exact ⟨_, rfl⟩

/-- The STATUS of a failure is never that of a success (10_state.md R27: FAIL). -/
theorem failStatus_ne_zero (r : Reason) : failStatus r ≠ 0 := by
  cases r <;> decide

/-- The STATUS values of the nine reasons (60_exceptions.md R263). -/
theorem failStatus_values :
    failStatus .bufferTooShort = 0x03#8 ∧ failStatus .versionMismatch = 0x05#8 ∧ failStatus .unknownType = 0x07#8
      ∧ failStatus .unknownCode = 0x09#8 ∧ failStatus .notApplicable = 0x0B#8 ∧ failStatus .notEcho = 0x0D#8
      ∧ failStatus .inconsistent = 0x0F#8 ∧ failStatus .invalidRef = 0x11#8 ∧ failStatus .illegalOp = 0x13#8 := by
  decide

/-! ### The step -/

theorem step_idle (s : State) (h : s.pending = []) : step s = .next s := by
  unfold step takeEvent; rw [h]

theorem step_event (s : State) (e : HostEvent) (es : List HostEvent) (h : s.pending = e :: es) :
    step s = perform e { s with pending := es } := by
  unfold step takeEvent; rw [h]

end Sys2Proof.Machine
end

