-- ==== Sys2Proof/Laws/Operands.lean ====
section
/-! SUPPORT. What the shared operand and header functions give, in plain arithmetic on the bytes they read. -/
namespace Sys2Proof.Machine

/-! ### The end of an operation writes no byte of BUF -/

@[simp] theorem State.readByte_succeed (s : State) (v x : Nat) : (s.succeed v).readByte x = s.readByte x := rfl

@[simp] theorem State.readByte_fail (s : State) (r : Reason) (x : Nat) : (s.fail r).readByte x = s.readByte x := rfl

/-! ### Byte swaps -/

theorem bswap16_toNat (x : BitVec 16) : (bswap16 x).toNat = x.toNat % 256 * 256 + x.toNat / 256 := by
  have := x.isLt
  simp only [bswap16, BitVec.toNat_append, BitVec.extractLsb'_toNat]
  rw [← Nat.shiftLeft_add_eq_or_of_lt (by omega)]
  simp only [Nat.shiftLeft_eq, Nat.shiftRight_eq_div_pow]
  omega

/-- The number that a host-order load gives converts to the big-endian value of the two bytes (20_memory.md R62). -/
theorem hostLoad16_lt (o : HostOrder) (x y : Byte) : hostLoad16 o x y < 65536 := by
  have h1 := x.isLt
  have h2 := y.isLt
  cases o <;> simp only [hostLoad16] <;> omega

/-! ### Bytes available -/

theorem available_eq (s : State) (a : Nat) : available s a = s.len.toNat - a := by
  unfold available
  split <;> omega

/-! ### Multi-byte fields -/

theorem State.readBE_four (s : State) (a : Nat) :
    s.readBE a 4 = (s.readByte a).toNat * 256 ^ 3 + (s.readByte (a + 1)).toNat * 256 ^ 2
      + (s.readByte (a + 2)).toNat * 256 + (s.readByte (a + 3)).toNat := by
  simp [State.readBE, Nat.add_assoc]

theorem State.readBE_six (s : State) (a : Nat) :
    s.readBE a 6 = (s.readByte a).toNat * 256 ^ 5 + (s.readByte (a + 1)).toNat * 256 ^ 4
      + (s.readByte (a + 2)).toNat * 256 ^ 3 + (s.readByte (a + 3)).toNat * 256 ^ 2
      + (s.readByte (a + 4)).toNat * 256 + (s.readByte (a + 5)).toNat := by
  simp [State.readBE, Nat.add_assoc]

/-- Byte `k` of the big-endian image of a 4-byte value (20_memory.md R65). -/
theorem beBytes_four_getElem? (v k : Nat) (h : k < 4) :
    (beBytes v 4)[k]? = some (BitVec.ofNat 8 (v / 256 ^ (3 - k))) := by
  match k, h with
  | 0, _ => rfl
  | 1, _ => rfl
  | 2, _ => rfl
  | 3, _ => rfl

theorem State.readBytes_eq_map (s : State) (a n : Nat) :
    s.readBytes a n = (List.range n).map (fun k => s.readByte (a + k)) := by
  induction n generalizing a with
  | zero => rfl
  | succ n ih =>
    rw [State.readBytes, ih, List.range_succ_eq_map]
    simp only [List.map_cons, List.map_map, Nat.add_zero]
    congr 1
    refine List.map_congr_left fun k _ => ?_
    simp only [Function.comp, Nat.succ_eq_add_one]
    congr 1
    omega

/-! ### Slices of the IPv4 header's first bytes -/

theorem slice_version (x : Nat) (h : x < 256) : slice 7 4 x = x / 16 := by
  simp only [slice]; omega

theorem slice_headerLength (x : Nat) : slice 3 0 x = x % 16 := by
  simp [slice]

theorem slice_precedence (x : Nat) (h : x < 256) : slice 7 5 x = x / 32 := by
  simp only [slice]; omega

theorem slice_dscp (x : Nat) (h : x < 256) : slice 7 2 x = x / 4 := by
  simp only [slice]; omega

theorem slice_flags (x : Nat) (h : x < 65536) : slice 15 13 x = x / 8192 := by
  simp only [slice]; omega

theorem slice_fragment (x : Nat) : slice 12 0 x = x % 8192 := by
  simp [slice]

/-! ### Header helpers, where the header's bytes are inside the buffer -/

theorem ipVer_ok (s : State) (b : Nat) (h : b < s.len.toNat) : ipVer s b = .ok ((s.readByte b).toNat / 16) := by
  simp [ipVer, memRead_ok s b 1 h, bind, Except.bind, slice_version _ (s.readByte b).isLt]

theorem ipIhl_ok (s : State) (b : Nat) (h : b < s.len.toNat) : ipIhl s b = .ok ((s.readByte b).toNat % 16) := by
  simp [ipIhl, memRead_ok s b 1 h, bind, Except.bind, slice_headerLength]

theorem ipHdrBytes_ok (s : State) (b : Nat) (h : b < s.len.toNat) :
    ipHdrBytes s b = .ok (4 * ((s.readByte b).toNat % 16)) := by
  simp [ipHdrBytes, ipIhl_ok s b h, bind, Except.bind]

theorem ipTotalLen_ok (s : State) (b : Nat) (h : b + 4 ≤ s.len.toNat) :
    ipTotalLen s b = .ok ((s.readByte (b + 2)).toNat * 256 + (s.readByte (b + 3)).toNat) := by
  simp [ipTotalLen, memRead_ok s (b + 2) 2 h]

theorem ipProto_ok (s : State) (b : Nat) (h : b + 10 ≤ s.len.toNat) : ipProto s b = .ok (s.readByte (b + 9)).toNat := by
  simp [ipProto, memRead_ok s (b + 9) 1 h]

/-- The field extractor of R160 where the field is inside the buffer. -/
theorem ipField_ok (s : State) (b k n : Nat) (hv : s.vIp.v = true) (hb : s.vIp.base.toNat = b)
    (h : b + k + n ≤ s.len.toNat) : ipField s k n = .ok (s.readBE (b + k) n) := by
  simp [ipField, requireView, hv, hb, memRead_ok s _ n h, bind, Except.bind]

theorem icmpField_ok (s : State) (m k n : Nat) (hv : s.vIcmp.v = true) (hb : s.vIcmp.base.toNat = m)
    (h : m + k + n ≤ s.len.toNat) : icmpField s k n = .ok (s.readBE (m + k) n) := by
  simp [icmpField, requireView, hv, hb, memRead_ok s _ n h, bind, Except.bind]

theorem icmpField_short (s : State) (m k n : Nat) (hv : s.vIcmp.v = true) (hb : s.vIcmp.base.toNat = m)
    (h : s.len.toNat < m + k + n) : icmpField s k n = .error .bufferTooShort := by
  simp [icmpField, requireView, hv, hb, memRead_short s _ n h, bind, Except.bind]

/-- The declared payload size of R159, where the header's bytes are inside the buffer. -/
theorem payloadSize_eq (s : State) (b : Nat) (h : b + 4 ≤ s.len.toNat) :
    payloadSize s b
      = if 4 * ((s.readByte b).toNat % 16) ≤ (s.readByte (b + 2)).toNat * 256 + (s.readByte (b + 3)).toNat then
          .ok ((s.readByte (b + 2)).toNat * 256 + (s.readByte (b + 3)).toNat - 4 * ((s.readByte b).toNat % 16))
        else .error .inconsistent := by
  simp only [payloadSize, ipTotalLen_ok s b h, ipHdrBytes_ok s b (by omega), require, bind, Except.bind]
  by_cases hc : 4 * ((s.readByte b).toNat % 16) ≤ (s.readByte (b + 2)).toNat * 256 + (s.readByte (b + 3)).toNat
  · rw [if_pos hc, if_pos hc]
  · rw [if_neg hc, if_neg hc]

/-- The echo data length of R198: the payload size less 8 bytes, or Inconsistent. -/
theorem echoDataLen_eq (s : State) (b : Nat) :
    echoDataLen s b = (do
      let ps ← payloadSize s b
      if 8 ≤ ps then .ok (ps - 8) else .error .inconsistent) := by
  unfold echoDataLen
  congr 1
  funext ps
  have e : Config.icmpHdrLen + Config.echoHdrLen = 8 := rfl
  rw [e]
  simp only [require, bind, Except.bind]
  by_cases hc : 8 ≤ ps
  · rw [if_pos hc, if_pos hc]
  · rw [if_neg hc, if_neg hc]

/-! ### Classifications, with the constants of 00_scope.md R5 written out -/

theorem protoClass_eq (p : Nat) :
    protoClass p = if p = 0x01 then 1 else if p = 0x06 then 2 else if p = 0x17 then 3 else 0 := rfl

theorem protoClass_ne_zero (p : Nat) : protoClass p ≠ 0 ↔ p = 0x01 ∨ p = 0x06 ∨ p = 0x17 := by
  rw [protoClass_eq]
  split
  · simp_all
  · split
    · simp_all
    · split <;> simp_all

theorem protoClass_eq_one (p : Nat) : protoClass p = 1 ↔ p = 0x01 := by
  rw [protoClass_eq]
  split
  · simp_all
  · split
    · simp_all
    · split <;> simp_all

theorem isEcho_eq_true (t : Nat) : isEcho t = true ↔ t = 8 ∨ t = 0 := by
  simp [isEcho, Config.icmpEchoRequest, Config.icmpEchoReply]

theorem isEcho_eq_false (t : Nat) : isEcho t = false ↔ t ≠ 8 ∧ t ≠ 0 := by
  rw [← Bool.not_eq_true, isEcho_eq_true, not_or]

theorem codeTable_eq (t c : Nat) :
    codeTable t c = if t = 3 then (if c > 15 then .error .unknownCode else .ok .unreach)
      else if t = 5 then (if c > Config.redirCodeMax.val then .error .unknownCode else .ok .redir)
      else if t = 11 then (if c > Config.timexCodeMax.val then .error .unknownCode else .ok .timex)
      else .error .unknownCode := rfl

/-- What the label lookup of the dumps answers for each type (43_icmp.md R195; 44_text_dump.md R234). -/
theorem codeLabelOrUnknown_eq (t c : Nat) :
    codeLabelOrUnknown t c = if t = 3 then (if c > 15 then unknownText else asciiText (Config.unreachLabel c))
      else if t = 5 then (if c > Config.redirCodeMax.val then unknownText else asciiText (Config.redirLabel c))
      else if t = 11 then (if c > Config.timexCodeMax.val then unknownText else asciiText (Config.timexLabel c))
      else unknownText := by
  rw [codeLabelOrUnknown, codeTable_eq]
  split_ifs <;> rfl

theorem icmpClass_eq (t : Nat) :
    icmpClass t = if t = 0 ∨ t = 8 then 0 else if t = 3 then 1 else if t = 5 then 2 else if t = 11 then 3 else 4 := by
  unfold icmpClass
  by_cases h : isEcho t = true
  · have h2 := (isEcho_eq_true t).mp h
    simp [h, Or.comm.mp h2]
  · have h2 : ¬ (t = 0 ∨ t = 8) := fun h3 => h ((isEcho_eq_true t).mpr (Or.comm.mp h3))
    simp only [h, h2, if_false]
    rfl

end Sys2Proof.Machine
end

