-- ==== Sys2Proof/Laws/PerInstr.lean ====
section
/-! SUPPORT. The family FieldsFit: the fields of a well-formed instruction stand unchanged in its command word
(30_encoding.md R100), one lemma per constructor. -/
namespace Sys2Proof.Laws

/-- Three fields that fit their widths are read back unchanged from the word they make up (30_encoding.md R100, R110). -/
theorem word_fields (op m a : Nat) (ho : op < 256) (hm : m < 256) (ha : a < 65536) :
    (BitVec.ofNat 32 (op * 2 ^ 24 + m * 2 ^ 16 + a)).toNat / 2 ^ 24 = op
      ∧ (BitVec.ofNat 32 (op * 2 ^ 24 + m * 2 ^ 16 + a)).toNat / 2 ^ 16 % 256 = m
      ∧ (BitVec.ofNat 32 (op * 2 ^ 24 + m * 2 ^ 16 + a)).toNat % 2 ^ 16 = a := by
  have h : (BitVec.ofNat 32 (op * 2 ^ 24 + m * 2 ^ 16 + a)).toNat = op * 2 ^ 24 + m * 2 ^ 16 + a := by
    rw [BitVec.toNat_ofNat]
    exact Nat.mod_eq_of_lt (by omega)
  rw [h]
  refine ⟨?_, ?_, ?_⟩ <;> omega

/-- The word of an instruction whose fields fit holds exactly those fields. -/
theorem encode_fields (i : Instr) (ho : i.fields.op < 256) (hm : i.fields.m < 256) (ha : i.fields.a < 65536) :
    (encode i).toNat / 2 ^ 24 = i.fields.op ∧ (encode i).toNat / 2 ^ 16 % 256 = i.fields.m
      ∧ (encode i).toNat % 2 ^ 16 = i.fields.a :=
  word_fields i.fields.op i.fields.m i.fields.a ho hm ha

namespace FieldsFit

/-- The encoder's word of a well-formed instruction shows OP, M and A of the instruction's row in bits 31:24, 23:16, 15:0. -/
def Statement (i : Instr) : Prop :=
  wellFormed i = true →
    (encode i).toNat / 2 ^ 24 = i.fields.op ∧ (encode i).toNat / 2 ^ 16 % 256 = i.fields.m
      ∧ (encode i).toNat % 2 ^ 16 = i.fields.a

/-- A raw reference of a well-formed instruction fits 16 bits. -/
theorem rawRef_fits (a : Nat) (h : decide (a ≤ 65535) = true) : a < 65536 :=
  Nat.lt_succ_of_le (of_decide_eq_true h)

theorem n2h16 : Statement .n2h16 :=
  fun _ => encode_fields _ (by decide) (by decide) (by decide)
theorem h2n16 : Statement .h2n16 :=
  fun _ => encode_fields _ (by decide) (by decide) (by decide)
theorem n2h32 : Statement .n2h32 :=
  fun _ => encode_fields _ (by decide) (by decide) (by decide)
theorem h2n32 : Statement .h2n32 :=
  fun _ => encode_fields _ (by decide) (by decide) (by decide)
theorem ethParse (a : Nat) : Statement (.ethParse a) :=
  fun h => encode_fields _ (by simp [Instr.fields]) (by simp [Instr.fields]) (rawRef_fits a h)
theorem ethGetDst : Statement .ethGetDst :=
  fun _ => encode_fields _ (by decide) (by decide) (by decide)
theorem ethGetSrc : Statement .ethGetSrc :=
  fun _ => encode_fields _ (by decide) (by decide) (by decide)
theorem ethGetTyperaw : Statement .ethGetTyperaw :=
  fun _ => encode_fields _ (by decide) (by decide) (by decide)
theorem ethGetType : Statement .ethGetType :=
  fun _ => encode_fields _ (by decide) (by decide) (by decide)
theorem ipInit : Statement .ipInit :=
  fun _ => encode_fields _ (by decide) (by decide) (by decide)
theorem ipParse (a : Nat) : Statement (.ipParse a) :=
  fun h => encode_fields _ (by simp [Instr.fields]) (by simp [Instr.fields]) (rawRef_fits a h)
theorem ipSetaddr (a : Nat) : Statement (.ipSetaddr a) :=
  fun h => encode_fields _ (by simp [Instr.fields]) (by simp [Instr.fields]) (rawRef_fits a h)
theorem ipIsv4 (a : Nat) : Statement (.ipIsv4 a) :=
  fun h => encode_fields _ (by simp [Instr.fields]) (by simp [Instr.fields]) (rawRef_fits a h)
theorem ipIsv6 (a : Nat) : Statement (.ipIsv6 a) :=
  fun h => encode_fields _ (by simp [Instr.fields]) (by simp [Instr.fields]) (rawRef_fits a h)
theorem ipNextid : Statement .ipNextid :=
  fun _ => encode_fields _ (by decide) (by decide) (by decide)
theorem ipPayoff : Statement .ipPayoff :=
  fun _ => encode_fields _ (by decide) (by decide) (by decide)
theorem ipPaysz : Statement .ipPaysz :=
  fun _ => encode_fields _ (by decide) (by decide) (by decide)
theorem ipTmplcopy (a : Nat) : Statement (.ipTmplcopy a) :=
  fun h => encode_fields _ (by simp [Instr.fields]) (by simp [Instr.fields]) (rawRef_fits a h)
theorem ipGetVer : Statement .ipGetVer :=
  fun _ => encode_fields _ (by decide) (by decide) (by decide)
theorem ipGetIhl : Statement .ipGetIhl :=
  fun _ => encode_fields _ (by decide) (by decide) (by decide)
theorem ipGetTos : Statement .ipGetTos :=
  fun _ => encode_fields _ (by decide) (by decide) (by decide)
theorem ipGetPrec : Statement .ipGetPrec :=
  fun _ => encode_fields _ (by decide) (by decide) (by decide)
theorem ipGetDscp : Statement .ipGetDscp :=
  fun _ => encode_fields _ (by decide) (by decide) (by decide)
theorem ipGetTotlen : Statement .ipGetTotlen :=
  fun _ => encode_fields _ (by decide) (by decide) (by decide)
theorem ipGetId : Statement .ipGetId :=
  fun _ => encode_fields _ (by decide) (by decide) (by decide)
theorem ipGetFlagsfrag : Statement .ipGetFlagsfrag :=
  fun _ => encode_fields _ (by decide) (by decide) (by decide)
theorem ipGetFlags : Statement .ipGetFlags :=
  fun _ => encode_fields _ (by decide) (by decide) (by decide)
theorem ipGetFrag : Statement .ipGetFrag :=
  fun _ => encode_fields _ (by decide) (by decide) (by decide)
theorem ipGetTtl : Statement .ipGetTtl :=
  fun _ => encode_fields _ (by decide) (by decide) (by decide)
theorem ipGetProto : Statement .ipGetProto :=
  fun _ => encode_fields _ (by decide) (by decide) (by decide)
theorem ipGetCsum : Statement .ipGetCsum :=
  fun _ => encode_fields _ (by decide) (by decide) (by decide)
theorem ipGetSrc : Statement .ipGetSrc :=
  fun _ => encode_fields _ (by decide) (by decide) (by decide)
theorem ipGetDst : Statement .ipGetDst :=
  fun _ => encode_fields _ (by decide) (by decide) (by decide)
theorem icmpGetType : Statement .icmpGetType :=
  fun _ => encode_fields _ (by decide) (by decide) (by decide)
theorem icmpGetCode : Statement .icmpGetCode :=
  fun _ => encode_fields _ (by decide) (by decide) (by decide)
theorem icmpGetCsum : Statement .icmpGetCsum :=
  fun _ => encode_fields _ (by decide) (by decide) (by decide)
theorem icmpTypelbl : Statement .icmpTypelbl :=
  fun _ => encode_fields _ (by decide) (by decide) (by decide)
theorem icmpCodelbl : Statement .icmpCodelbl :=
  fun _ => encode_fields _ (by decide) (by decide) (by decide)
theorem icmpIsecho : Statement .icmpIsecho :=
  fun _ => encode_fields _ (by decide) (by decide) (by decide)
theorem icmpClass : Statement .icmpClass :=
  fun _ => encode_fields _ (by decide) (by decide) (by decide)
theorem icmpEcholoc : Statement .icmpEcholoc :=
  fun _ => encode_fields _ (by decide) (by decide) (by decide)
theorem icmpGetid : Statement .icmpGetid :=
  fun _ => encode_fields _ (by decide) (by decide) (by decide)
theorem icmpGetseq : Statement .icmpGetseq :=
  fun _ => encode_fields _ (by decide) (by decide) (by decide)
theorem ethDumps : Statement .ethDumps :=
  fun _ => encode_fields _ (by decide) (by decide) (by decide)
theorem ethDumpd : Statement .ethDumpd :=
  fun _ => encode_fields _ (by decide) (by decide) (by decide)
theorem ipDumpPrec : Statement .ipDumpPrec :=
  fun _ => encode_fields _ (by decide) (by decide) (by decide)
theorem ipDumpDscp : Statement .ipDumpDscp :=
  fun _ => encode_fields _ (by decide) (by decide) (by decide)
theorem ipDumpver : Statement .ipDumpver :=
  fun _ => encode_fields _ (by decide) (by decide) (by decide)
theorem ipDumphl : Statement .ipDumphl :=
  fun _ => encode_fields _ (by decide) (by decide) (by decide)
theorem ipDumptosPrec : Statement .ipDumptosPrec :=
  fun _ => encode_fields _ (by decide) (by decide) (by decide)
theorem ipDumptosDscp : Statement .ipDumptosDscp :=
  fun _ => encode_fields _ (by decide) (by decide) (by decide)
theorem ipDumpff : Statement .ipDumpff :=
  fun _ => encode_fields _ (by decide) (by decide) (by decide)
theorem ipDumpproto : Statement .ipDumpproto :=
  fun _ => encode_fields _ (by decide) (by decide) (by decide)
theorem ipDumpaddr : Statement .ipDumpaddr :=
  fun _ => encode_fields _ (by decide) (by decide) (by decide)
theorem icmpDumps : Statement .icmpDumps :=
  fun _ => encode_fields _ (by decide) (by decide) (by decide)
theorem icmpDumpd : Statement .icmpDumpd :=
  fun _ => encode_fields _ (by decide) (by decide) (by decide)

end FieldsFit

end Sys2Proof.Laws
end

