-- ==== Sys2Proof/Laws/Run.lean ====
section
/-! SUPPORT. How a run of the machine unfolds, one step at a time. -/
namespace Sys2Proof.Machine

theorem run_zero (s : State) : Host.Core.run Sys2Proof.core 0 s = .next s := rfl

/-- A run goes on with the rest of its steps from the next state. -/
theorem run_next (k : Nat) (s t : State) (h : step s = .next t) :
    Host.Core.run Sys2Proof.core (k + 1) s = Host.Core.run Sys2Proof.core k t := by
  have h2 : Sys2Proof.core.step s = .next t := h
  simp only [Host.Core.run, h2]

theorem run_fault (k : Nat) (s : State) (r : Fault) (h : step s = .fault r) :
    Host.Core.run Sys2Proof.core (k + 1) s = .fault r := by
  have h2 : Sys2Proof.core.step s = .fault r := h
  simp only [Host.Core.run, h2]

theorem run_refused (k : Nat) (s : State) (r : Refusal) (h : step s = .refused r) :
    Host.Core.run Sys2Proof.core (k + 1) s = .refused r := by
  have h2 : Sys2Proof.core.step s = .refused r := h
  simp only [Host.Core.run, h2]

/-- What a property that every step keeps holds of: every state a run can reach from a state that has it. -/
theorem run_keeps (p : State → Prop) (hp : ∀ s t, p s → step s = .next t → p t) (k : Nat) (s t : State) (h : p s)
    (hr : Host.Core.run Sys2Proof.core k s = .next t) : p t := by
  induction k generalizing s with
  | zero =>
    rw [run_zero] at hr
    cases hr
    exact h
  | succ k ih =>
    cases hs : step s with
    | next u =>
      rw [run_next k s u hs] at hr
      exact ih u (hp s u h hs) hr
    | fault r =>
      rw [run_fault k s r hs] at hr
      cases hr
    | refused r =>
      rw [run_refused k s r hs] at hr
      cases hr

end Sys2Proof.Machine
end

