-- ==== Sys2Proof/Laws/Text.lean ====
section
/-! SUPPORT. Every text the dump operations build is 7-bit ASCII (44_text_dump.md R221), one lemma per text function. -/
namespace Sys2Proof.Machine

/-- Every byte of a text is 7-bit ASCII. -/
abbrev Ascii (t : Text) : Prop := ∀ b ∈ t, b.toNat < 128

theorem ascii_nil : Ascii [] := by simp [Ascii]

theorem ascii_append {t u : Text} (ht : Ascii t) (hu : Ascii u) : Ascii (t ++ u) := by
  intro b hb
  rcases List.mem_append.mp hb with h | h
  · exact ht b h
  · exact hu b h

theorem ascii_asciiText (t : AsciiText) : Ascii (asciiText t) := by
  intro b hb
  obtain ⟨c, _, rfl⟩ := List.mem_map.mp hb
  have := c.isLt
  simp only [BitVec.toNat_setWidth]
  omega

theorem ascii_eol : Ascii eol := ascii_asciiText _

theorem ascii_line {t : Text} (h : Ascii t) : Ascii (line t) := ascii_append h ascii_eol

theorem hexDigit_lt (d : Nat) (h : d < 16) : (hexDigit d).toNat < 128 := by
  unfold hexDigit
  split <;> rw [BitVec.toNat_ofNat] <;> omega

theorem ascii_hex2 (v : Nat) : Ascii (hex2 v) := by
  intro b hb
  simp only [hex2, List.mem_cons, List.not_mem_nil, or_false] at hb
  rcases hb with rfl | rfl <;> exact hexDigit_lt _ (Nat.mod_lt _ (by decide))

theorem ascii_hex4 (v : Nat) : Ascii (hex4 v) := ascii_append (ascii_hex2 _) (ascii_hex2 _)

theorem decDigit_lt (d : Nat) (h : d < 10) : (decDigit d).toNat < 128 := by
  unfold decDigit
  rw [BitVec.toNat_ofNat]
  omega

theorem ascii_decDigits (fuel v : Nat) : Ascii (decDigits fuel v) := by
  induction fuel generalizing v with
  | zero => exact ascii_nil
  | succ n ih =>
    rw [decDigits]
    split
    · rename_i h
      intro b hb
      rw [List.mem_singleton.mp hb]
      exact decDigit_lt v h
    · refine ascii_append (ih _) fun b hb => ?_
      rw [List.mem_singleton.mp hb]
      exact decDigit_lt _ (Nat.mod_lt _ (by decide))

theorem ascii_dec (v : Nat) : Ascii (dec v) := ascii_decDigits _ _

theorem ascii_prefixedHex2 (v : Nat) : Ascii (prefixedHex2 v) := ascii_append (by decide) (ascii_hex2 v)

theorem ascii_prefixedHex4 (v : Nat) : Ascii (prefixedHex4 v) := ascii_append (by decide) (ascii_hex4 v)

theorem ascii_inParens {t : Text} (h : Ascii t) : Ascii (inParens t) :=
  ascii_append (ascii_append (by decide) h) (by decide)

theorem ascii_joinTexts {sep : Text} (hs : Ascii sep) (ts : List Text) (h : ∀ t ∈ ts, Ascii t) :
    Ascii (joinTexts sep ts) := by
  induction ts with
  | nil => exact ascii_nil
  | cons t rest ih =>
    cases rest with
    | nil => exact h t (by simp)
    | cons u rest =>
      exact ascii_append (ascii_append (h t (by simp)) hs) (ih fun x hx => h x (List.mem_cons_of_mem _ hx))

theorem ascii_mac (bs : List Byte) : Ascii (mac bs) := by
  refine ascii_joinTexts (by decide) _ fun t ht => ?_
  obtain ⟨b, _, rfl⟩ := List.mem_map.mp ht
  exact ascii_hex2 _

theorem ascii_ipaddr (bs : List Byte) : Ascii (ipaddr bs) := by
  refine ascii_joinTexts (by decide) _ fun t ht => ?_
  obtain ⟨b, _, rfl⟩ := List.mem_map.mp ht
  exact ascii_dec _

theorem ascii_hexdumpFrom (n i : Nat) (d : List Byte) : Ascii (hexdumpFrom n i d) := by
  induction d generalizing i with
  | nil => exact ascii_nil
  | cons b bs ih =>
    refine ascii_append (ascii_append (ascii_hex2 _) ?_) (ih _)
    split
    · exact ascii_eol
    · split
      · decide
      · exact ascii_nil

theorem ascii_hexdump (d : List Byte) : Ascii (hexdump d) := ascii_hexdumpFrom _ _ _

theorem ascii_unknownText : Ascii unknownText := by decide

theorem ascii_typeLabelOrUnknown (t : Nat) : Ascii (typeLabelOrUnknown t) := by
  have h : ∀ l ∈ typeLabelRom, Ascii l := by
    have he : Ascii echoRequestText := by decide
    intro l hl
    simp only [typeLabelRom, List.mem_cons, List.not_mem_nil, or_false] at hl
    rcases hl with rfl | rfl | rfl | rfl | rfl | rfl | rfl | rfl | rfl | rfl | rfl | rfl <;>
      first | exact ascii_asciiText _ | exact ascii_unknownText | exact he
  unfold typeLabelOrUnknown
  split
  · rename_i l hl
    exact h l (List.mem_of_getElem? hl)
  · exact ascii_unknownText

theorem ascii_codeLabelOrUnknown (t c : Nat) : Ascii (codeLabelOrUnknown t c) := by
  unfold codeLabelOrUnknown
  split
  · rename_i tbl _
    cases tbl <;> exact ascii_asciiText _
  · exact ascii_unknownText

theorem ascii_protoName (p : Nat) : Ascii (protoName p) := by
  unfold protoName
  split
  · decide
  · split
    · decide
    · split
      · decide
      · exact ascii_unknownText

end Sys2Proof.Machine
end

