-- ==== Sys2Proof/Tests/Slice0.lean ====
section
/-! SUPPORT. The model's own tests: the checks of WellFormed, the decoding of words written out from 30_encoding.md R106 and
R107, one step of every operation on a small state (expected values from 95_test_vectors.md, whose vector each docstring
names), the host's actions, and for every statement with hypotheses a state that meets them (`witness_<statement>`). -/
namespace Sys2Proof.Tests
open Sys2Proof Sys2Proof.Machine

/-! ### States and outcomes -/

/-- The reset state with these bytes loaded, no view established. -/
def bufOf (bytes : List Nat) : State :=
  { State.reset with
    buf := Memory.ofBytes 0 (bytes.map (BitVec.ofNat 8)), len := BitVec.ofNat 16 bytes.length, bufv := true }

/-- The example buffer E of 95_test_vectors.md. -/
def frameE : List Nat :=
  [0x66, 0x77, 0x88, 0x99, 0xaa, 0xbb, 0x00, 0x11, 0x22, 0x33, 0x44, 0x55, 0x08, 0x00]

/-- The example buffer D of 95_test_vectors.md. -/
def packetD : List Nat :=
  [0x45, 0xb8, 0x00, 0x1c, 0x00, 0x01, 0x40, 0x00, 0x40, 0x01, 0xab, 0xcd, 0xc0, 0xa8, 0x00, 0x01, 0xc0, 0xa8, 0x00, 0x02,
   0x08, 0x00, 0xe5, 0xc3, 0x12, 0x34, 0x00, 0x07]

/-- E with V_ETH at its beginning. -/
def eParsed : State :=
  { bufOf frameE with vEth := ⟨true, 0⟩ }

/-- These bytes with V_IP at 0 and V_ICMP at 20. -/
def parsed (bytes : List Nat) : State :=
  { bufOf bytes with vIp := ⟨true, 0⟩, vIcmp := ⟨true, 20⟩ }

/-- D with the type and the code of its ICMP message replaced. -/
def withIcmp (t c : Nat) : State :=
  parsed ((packetD.set 20 t).set 21 c)

/-- D with V_ECHO at 24. -/
def located : State :=
  { parsed packetD with vEcho := ⟨true, 24⟩ }

/-- RES and STATUS of a next state. -/
def resStatus (o : Host.Outcome State Fault Refusal) : Option (Nat × Nat) :=
  match o with
  | .next t => some (t.res.toNat, t.status.toNat)
  | .fault _ => none
  | .refused _ => none

/-- TXT of a next state. -/
def txtOf (o : Host.Outcome State Fault Refusal) : Option Text :=
  match o with
  | .next t => some t.txt
  | .fault _ => none
  | .refused _ => none

/-- The `n` bytes of BUF from `a` on, in a next state. -/
def bytesOf (a n : Nat) (o : Host.Outcome State Fault Refusal) : Option (List Nat) :=
  match o with
  | .next t => some ((t.readBytes a n).map BitVec.toNat)
  | .fault _ => none
  | .refused _ => none

/-- The four views of a next state. -/
def viewsOf (o : Host.Outcome State Fault Refusal) : Option (View × View × View × View) :=
  match o with
  | .next t => some (t.vEth, t.vIp, t.vIcmp, t.vEcho)
  | .fault _ => none
  | .refused _ => none

/-! ### WellFormed: the one check, an offset of 16 bits (30_encoding.md R104) -/

theorem test_wellFormed_ethParse : wellFormed (.ethParse 65535) = true ∧ wellFormed (.ethParse 65536) = false := by decide
theorem test_wellFormed_ipParse : wellFormed (.ipParse 65535) = true ∧ wellFormed (.ipParse 65536) = false := by decide
theorem test_wellFormed_ipSetaddr : wellFormed (.ipSetaddr 65535) = true ∧ wellFormed (.ipSetaddr 65536) = false := by decide
theorem test_wellFormed_ipIsv4 : wellFormed (.ipIsv4 65535) = true ∧ wellFormed (.ipIsv4 65536) = false := by decide
theorem test_wellFormed_ipIsv6 : wellFormed (.ipIsv6 65535) = true ∧ wellFormed (.ipIsv6 65536) = false := by decide
theorem test_wellFormed_ipTmplcopy : wellFormed (.ipTmplcopy 65535) = true
  ∧ wellFormed (.ipTmplcopy 65536) = false := by decide

/-! ### Decoding: every constructor from a word written out from the tables of 30_encoding.md R106 and R107 -/

theorem test_decode_byteOrder :
    decode 0x01000000#32 = .ok .n2h16
      ∧ decode 0x02000000#32 = .ok .h2n16
      ∧ decode 0x03000000#32 = .ok .n2h32
      ∧ decode 0x04000000#32 = .ok .h2n32 := by
  decide

theorem test_decode_ethernet :
    decode 0x1000FFFF#32 = .ok (.ethParse 65535)
      ∧ decode 0x11000000#32 = .ok .ethGetDst
      ∧ decode 0x11010000#32 = .ok .ethGetSrc
      ∧ decode 0x11020000#32 = .ok .ethGetTyperaw
      ∧ decode 0x11030000#32 = .ok .ethGetType := by
  decide

theorem test_decode_ip :
    decode 0x20000000#32 = .ok .ipInit
      ∧ decode 0x2100000E#32 = .ok (.ipParse 14)
      ∧ decode 0x22000015#32 = .ok (.ipSetaddr 21)
      ∧ decode 0x2300001B#32 = .ok (.ipIsv4 27)
      ∧ decode 0x2400001C#32 = .ok (.ipIsv6 28)
      ∧ decode 0x25000000#32 = .ok .ipNextid
      ∧ decode 0x26000000#32 = .ok .ipPayoff
      ∧ decode 0x27000000#32 = .ok .ipPaysz
      ∧ decode 0x28000015#32 = .ok (.ipTmplcopy 21) := by
  decide

theorem test_decode_ipGet :
    decode 0x29000000#32 = .ok .ipGetVer
      ∧ decode 0x29010000#32 = .ok .ipGetIhl
      ∧ decode 0x29020000#32 = .ok .ipGetTos
      ∧ decode 0x29030000#32 = .ok .ipGetPrec
      ∧ decode 0x29040000#32 = .ok .ipGetDscp
      ∧ decode 0x29050000#32 = .ok .ipGetTotlen
      ∧ decode 0x29060000#32 = .ok .ipGetId
      ∧ decode 0x29070000#32 = .ok .ipGetFlagsfrag
      ∧ decode 0x29080000#32 = .ok .ipGetFlags
      ∧ decode 0x29090000#32 = .ok .ipGetFrag
      ∧ decode 0x290A0000#32 = .ok .ipGetTtl
      ∧ decode 0x290B0000#32 = .ok .ipGetProto
      ∧ decode 0x290C0000#32 = .ok .ipGetCsum
      ∧ decode 0x290D0000#32 = .ok .ipGetSrc
      ∧ decode 0x290E0000#32 = .ok .ipGetDst := by
  decide

theorem test_decode_icmp :
    decode 0x30000000#32 = .ok .icmpGetType
      ∧ decode 0x30010000#32 = .ok .icmpGetCode
      ∧ decode 0x30020000#32 = .ok .icmpGetCsum
      ∧ decode 0x31000000#32 = .ok .icmpTypelbl
      ∧ decode 0x32000000#32 = .ok .icmpCodelbl
      ∧ decode 0x33000000#32 = .ok .icmpIsecho
      ∧ decode 0x34000000#32 = .ok .icmpClass
      ∧ decode 0x35000000#32 = .ok .icmpEcholoc
      ∧ decode 0x36000000#32 = .ok .icmpGetid
      ∧ decode 0x37000000#32 = .ok .icmpGetseq := by
  decide

theorem test_decode_dump :
    decode 0x40000000#32 = .ok .ethDumps
      ∧ decode 0x41000000#32 = .ok .ethDumpd
      ∧ decode 0x42000000#32 = .ok .ipDumpPrec
      ∧ decode 0x42010000#32 = .ok .ipDumpDscp
      ∧ decode 0x43000000#32 = .ok .ipDumpver
      ∧ decode 0x44000000#32 = .ok .ipDumphl
      ∧ decode 0x45000000#32 = .ok .ipDumptosPrec
      ∧ decode 0x45010000#32 = .ok .ipDumptosDscp
      ∧ decode 0x46000000#32 = .ok .ipDumpff
      ∧ decode 0x47000000#32 = .ok .ipDumpproto
      ∧ decode 0x48000000#32 = .ok .ipDumpaddr
      ∧ decode 0x49000000#32 = .ok .icmpDumps
      ∧ decode 0x4A000000#32 = .ok .icmpDumpd := by
  decide

/-- V-DEC-1 to V-DEC-10: the four cases of R108. -/
theorem test_decode_illegal :
    decode 0x00000000#32 = .error .reservedOp ∧ decode 0x4B000000#32 = .error .reservedOp
      ∧ decode 0x01000001#32 = .error .offsetNotZero ∧ decode 0x20000001#32 = .error .offsetNotZero
      ∧ decode 0x11000001#32 = .error .offsetNotZero
      ∧ decode 0x01010000#32 = .error .selectorNotZero ∧ decode 0x21010000#32 = .error .selectorNotZero
      ∧ decode 0x11040000#32 = .error .reservedSelector ∧ decode 0x290F0000#32 = .error .reservedSelector
      ∧ decode 0x45020000#32 = .error .reservedSelector := by
  decide

/-- The table's numbering of a word's bits, and bits above the word. -/
theorem test_decodeTableWord :
    decodeTableWord 32 0x2100000E = some (.ipParse 14) ∧ decodeTableWord 32 0x290F0000 = none
      ∧ decodeTableWord 8 0x100 = none := by
  decide

/-! ### Byte order (V-BO-1 to V-BO-15) -/

theorem test_n2h16_little_endian :
    convert16 .le (arg0Low16 { State.reset with arg0 := 0xABCD3412 }) = 0x1234#16 := by decide
theorem test_n2h16_big_endian :
    convert16 .be (arg0Low16 { State.reset with arg0 := 0xABCD3412 }) = 0x3412#16 := by decide
theorem test_h2n16_little_endian :
    convert16 .le (arg0Low16 { State.reset with arg0 := 0x00000800 }) = 0x0008#16 := by decide
theorem test_n2h32_little_endian : convert32 .le 0x12344321#32 = 0x21433412#32 := by decide
theorem test_n2h32_big_endian : convert32 .be 0x0100A8C0#32 = 0x0100A8C0#32 := by decide
theorem test_h2n32_little_endian : convert32 .le 0xC0A80001#32 = 0x0100A8C0#32 := by decide
/-- V-BO-11 and R132: values with palindromic bytes map to themselves in either order. -/
theorem test_convert_same_bytes (o : HostOrder) :
    convert16 o 0xFFFF#16 = 0xFFFF#16 ∧ convert32 o 0x12343412#32 = 0x12343412#32 := by
  cases o <;> decide
/-- The four operations answer what their conversion gives. -/
theorem test_converters_run (s : State) :
    exec .n2h16 s = .next (s.succeed (convert16 Config.hostOrder (arg0Low16 s)).toNat)
      ∧ exec .h2n16 s = .next (s.succeed (convert16 Config.hostOrder (arg0Low16 s)).toNat)
      ∧ exec .n2h32 s = .next (s.succeed (convert32 Config.hostOrder s.arg0).toNat)
      ∧ exec .h2n32 s = .next (s.succeed (convert32 Config.hostOrder s.arg0).toNat) :=
  ⟨rfl, rfl, rfl, rfl⟩

/-! ### Ethernet (V-ETH) -/

/-- V-ETH-1. -/
theorem test_ethParse : resStatus (exec (.ethParse 0) (bufOf frameE)) = some (14, 0) := by decide
/-- V-ETH-9: RES stays, STATUS = 0x03. -/
theorem test_ethParse_short : resStatus (exec (.ethParse 1) (bufOf frameE)) = some (0, 0x03) := by decide
/-- V-ETH-2. -/
theorem test_ethGetDst : resStatus (exec .ethGetDst eParsed) = some (0x66778899AABB, 0) := by decide
/-- V-ETH-3. -/
theorem test_ethGetSrc : resStatus (exec .ethGetSrc eParsed) = some (0x001122334455, 0) := by decide
/-- V-ETH-4, V-ETH-5: the two host orders of the bytes 08 00. -/
theorem test_ethGetTyperaw :
    hostLoad16 .le 0x08#8 0x00#8 = 0x0008 ∧ hostLoad16 .be 0x08#8 0x00#8 = 0x0800 := by decide
/-- The load is that of bytes 12 and 13. -/
theorem test_ethGetTyperaw_runs :
    exec .ethGetTyperaw eParsed = .next (eParsed.succeed (hostLoad16 Config.hostOrder 0x08#8 0x00#8)) := rfl
/-- V-ETH-6. -/
theorem test_ethGetType : resStatus (exec .ethGetType eParsed) = some (0x0800, 0) := by decide

/-! ### IPv4 (V-IP) -/

/-- V-IP-29: RES = 0, TMPLV = 1. -/
theorem test_ipInit :
    exec .ipInit State.reset = .next { State.reset with tmpl := Config.tmplInit, tmplv := true } := rfl
/-- V-IP-31: the undefined case faults (U1). -/
theorem test_ipInit_twice : exec .ipInit { State.reset with tmplv := true } = .fault .initTwice := rfl
/-- V-IP-1: RES = 1, V_IP = (1, 0), V_ICMP = (1, 20), V_ECHO dropped. -/
theorem test_ipParse :
    exec (.ipParse 0) located
      = .next { parsed packetD with res := 1, vEcho := View.dropped 1, freeDraws := 2 } := rfl
/-- V-IP-2: the ICMP payload would begin at LEN. -/
theorem test_ipParse_headerOnly :
    resStatus (exec (.ipParse 0) (bufOf (packetD.take 20))) = some (0, 0x03) := by decide
/-- V-IP-25: the last eight bytes of the buffer. -/
theorem test_ipSetaddr :
    bytesOf 19 9 (exec (.ipSetaddr 8) { bufOf packetD with arg0 := 0x0A000001, arg1 := 0x0A0000FE })
      = some [0x02, 0x0a, 0x00, 0x00, 0x01, 0x0a, 0x00, 0x00, 0xfe] := by decide
/-- V-IP-24. -/
theorem test_ipSetaddr_short : resStatus (exec (.ipSetaddr 9) (bufOf packetD)) = some (0, 0x03) := by decide
/-- S2. -/
theorem test_ipIsv4 : resStatus (exec (.ipIsv4 0) (bufOf packetD)) = some (1, 0) := by decide
/-- V-IP-17: byte 27 = 0x07. -/
theorem test_ipIsv4_last : resStatus (exec (.ipIsv4 27) (bufOf packetD)) = some (0, 0) := by decide
/-- S2. -/
theorem test_ipIsv6 : resStatus (exec (.ipIsv6 0) (bufOf [0x6a])) = some (1, 0) := by decide
/-- V-IP-17, the same test of LEN. -/
theorem test_ipIsv6_past : resStatus (exec (.ipIsv6 28) (bufOf packetD)) = some (0, 0x03) := by decide
/-- S3: SEQ wraps silently. -/
theorem test_ipNextid :
    exec .ipNextid { State.reset with seq := 0xFFFF } = .next { State.reset with seq := 0, res := 0xFFFF } := rfl
/-- V-IP-18. -/
theorem test_ipPayoff : resStatus (exec .ipPayoff (parsed packetD)) = some (20, 0) := by decide
/-- V-IP-10: a length of 0 words is not checked. -/
theorem test_ipPayoff_noWords : resStatus (exec .ipPayoff (parsed (packetD.set 0 0x40))) = some (0, 0) := by decide
/-- V-IP-18. -/
theorem test_ipPaysz : resStatus (exec .ipPaysz (parsed packetD)) = some (8, 0) := by decide
/-- V-IP-20. -/
theorem test_ipPaysz_inconsistent :
    resStatus (exec .ipPaysz (parsed (packetD.set 3 0x13))) = some (0, 0x0F) := by decide
/-- V-IP-30, with a template whose byte k is k + 1. -/
theorem test_ipTmplcopy :
    bytesOf 7 21 (exec (.ipTmplcopy 8)
      { bufOf packetD with tmplv := true, tmpl := Vector.ofFn (fun k => BitVec.ofNat 8 (k.val + 1)) })
      = some [0x00, 1, 2, 3, 4, 5, 6, 7, 8, 9, 10, 11, 12, 13, 14, 15, 16, 17, 18, 19, 20] := by decide
/-- V-IP-28. -/
theorem test_ipTmplcopy_noTemplate : resStatus (exec (.ipTmplcopy 0) State.reset) = some (0, 0x11) := by decide
theorem test_ipGetVer : resStatus (exec .ipGetVer (parsed packetD)) = some (4, 0) := by decide
theorem test_ipGetIhl : resStatus (exec .ipGetIhl (parsed packetD)) = some (5, 0) := by decide
theorem test_ipGetTos : resStatus (exec .ipGetTos (parsed packetD)) = some (0xb8, 0) := by decide
theorem test_ipGetPrec : resStatus (exec .ipGetPrec (parsed packetD)) = some (5, 0) := by decide
theorem test_ipGetDscp : resStatus (exec .ipGetDscp (parsed packetD)) = some (46, 0) := by decide
theorem test_ipGetTotlen : resStatus (exec .ipGetTotlen (parsed packetD)) = some (28, 0) := by decide
theorem test_ipGetId : resStatus (exec .ipGetId (parsed packetD)) = some (1, 0) := by decide
theorem test_ipGetFlagsfrag : resStatus (exec .ipGetFlagsfrag (parsed packetD)) = some (0x4000, 0) := by decide
theorem test_ipGetFlags : resStatus (exec .ipGetFlags (parsed packetD)) = some (2, 0) := by decide
theorem test_ipGetTtl : resStatus (exec .ipGetTtl (parsed packetD)) = some (64, 0) := by decide
theorem test_ipGetProto : resStatus (exec .ipGetProto (parsed packetD)) = some (1, 0) := by decide
theorem test_ipGetCsum : resStatus (exec .ipGetCsum (parsed packetD)) = some (0xabcd, 0) := by decide
theorem test_ipGetSrc : resStatus (exec .ipGetSrc (parsed packetD)) = some (0xC0A80001, 0) := by decide
theorem test_ipGetDst : resStatus (exec .ipGetDst (parsed packetD)) = some (0xC0A80002, 0) := by decide
/-- With bytes 6, 7 = 1f ff. -/
theorem test_ipGetFrag :
    resStatus (exec .ipGetFrag (parsed ((packetD.set 6 0x1f).set 7 0xff))) = some (8191, 0) := by decide
/-- With bytes 6, 7 = ff ff. -/
theorem test_ipGetFlags_ones :
    resStatus (exec .ipGetFlags (parsed ((packetD.set 6 0xff).set 7 0xff))) = some (7, 0) := by decide

/-! ### ICMP (V-ICMP) -/

/-- V-ICMP-16. -/
theorem test_icmpGetType : resStatus (exec .icmpGetType (parsed packetD)) = some (8, 0) := by decide
/-- V-ICMP-5. -/
theorem test_icmpGetCode : resStatus (exec .icmpGetCode (withIcmp 3 15)) = some (15, 0) := by decide
/-- V-ICMP-19: a message of one byte. -/
theorem test_icmpGetCode_short :
    resStatus (exec .icmpGetCode (parsed (packetD.take 21))) = some (0, 0x03) := by decide
/-- V-ICMP-16. -/
theorem test_icmpGetCsum : resStatus (exec .icmpGetCsum (parsed packetD)) = some (0xe5c3, 0) := by decide
/-- V-ICMP-9. -/
theorem test_icmpTypelbl : resStatus (exec .icmpTypelbl (withIcmp 11 1)) = some (11, 0) := by decide
/-- V-ICMP-14. -/
theorem test_icmpTypelbl_unknown : resStatus (exec .icmpTypelbl (withIcmp 12 0)) = some (0, 0x07) := by decide
/-- V-ICMP-5. -/
theorem test_icmpCodelbl : resStatus (exec .icmpCodelbl (withIcmp 3 15)) = some (0x10F, 0) := by decide
/-- V-ICMP-6. -/
theorem test_icmpCodelbl_beyond : resStatus (exec .icmpCodelbl (withIcmp 3 16)) = some (0, 0x09) := by decide
/-- V-ICMP-2. -/
theorem test_icmpIsecho : resStatus (exec .icmpIsecho (withIcmp 0 0xc8)) = some (1, 0) := by decide
/-- V-ICMP-4. -/
theorem test_icmpIsecho_other : resStatus (exec .icmpIsecho (withIcmp 3 0)) = some (0, 0) := by decide
/-- V-ICMP-6. -/
theorem test_icmpClass : resStatus (exec .icmpClass (withIcmp 3 16)) = some (0x1001, 0) := by decide
/-- V-ICMP-13: the code is not in RES. -/
theorem test_icmpClass_unclassified : resStatus (exec .icmpClass (withIcmp 10 9)) = some (4, 0) := by decide
/-- V-ICMP-19: the sub-header is not checked against LEN. -/
theorem test_icmpEcholoc :
    exec .icmpEcholoc (parsed (packetD.take 21))
      = .next { parsed (packetD.take 21) with vEcho := ⟨true, 24⟩, res := 24 } := rfl
/-- V-ICMP-4. -/
theorem test_icmpEcholoc_notEcho : resStatus (exec .icmpEcholoc (withIcmp 3 0)) = some (0, 0x0D) := by decide
/-- V-ICMP-17. -/
theorem test_icmpGetid : resStatus (exec .icmpGetid located) = some (0x1234, 0) := by decide
/-- V-ICMP-18. -/
theorem test_icmpGetid_noView : resStatus (exec .icmpGetid (parsed packetD)) = some (0, 0x11) := by decide
/-- V-ICMP-17. -/
theorem test_icmpGetseq : resStatus (exec .icmpGetseq located) = some (7, 0) := by decide

/-! ### Text (V-TXT); the texts of the OPEN labels and of the line's end stand as the parameters they are -/

/-- 43_icmp.md R195 and 44_text_dump.md R234: code 15 is in the unreachable table, code 16 is beyond it. -/
theorem test_codeLabel_unreach_bound :
    codeLabelOrUnknown 3 15 = asciiText (Config.unreachLabel 15) ∧ codeLabelOrUnknown 3 16 = unknownText := ⟨rfl, rfl⟩

/-- V-TXT-1: the source address first. -/
theorem test_ethDumps :
    txtOf (exec .ethDumps eParsed)
      = some (line (chars ['e', 't', 'h', 'e', 'r', ' ']
        ++ chars ['0', '0', '-', '1', '1', '-', '2', '2', '-', '3', '3', '-', '4', '4', '-', '5', '5']
        ++ chars [' ', '>', '>', ' ']
          ++ chars ['6', '6', '-', '7', '7', '-', '8', '8', '-', '9', '9', '-', 'a', 'a', '-', 'b', 'b'])) := by
  rfl
set_option maxRecDepth 4000 in
/-- V-TXT-2. -/
theorem test_ethDumpd :
    txtOf (exec .ethDumpd eParsed)
      = some (line (asciiText Config.fmtEthDst
          ++ chars ['6', '6', '-', '7', '7', '-', '8', '8', '-', '9', '9', '-', 'a', 'a', '-', 'b', 'b'])
        ++ line (asciiText Config.fmtEthSrc
          ++ chars ['0', '0', '-', '1', '1', '-', '2', '2', '-', '3', '3', '-', '4', '4', '-', '5', '5'])
        ++ line (asciiText Config.fmtEthType ++ chars ['2', '0', '4', '8']
          ++ chars [' ', '(', '0', 'x', '0', '8', '0', '0', ')'])) := by
  rfl
/-- V-TXT-4. -/
theorem test_ipDumpver :
    txtOf (exec .ipDumpver (parsed packetD))
      = some (line (asciiText Config.fmtIpVer ++ chars ['4'])) := by
  rfl
/-- V-TXT-5. -/
theorem test_ipDumphl :
    txtOf (exec .ipDumphl (parsed packetD))
      = some (line (asciiText Config.fmtIpHl ++ chars ['5']
        ++ chars [' ', '(', '2', '0', ' ', 'b', 'y', 't', 'e', 's', ')'])) := by
  rfl
/-- V-TXT-6. -/
theorem test_ipDumptosPrec :
    txtOf (exec .ipDumptosPrec (parsed packetD))
      = some (line (asciiText Config.fmtIpTos ++ chars ['0', 'x', 'b', '8']
        ++ chars [' ', 'p', 'r', 'e', 'c', 'e', 'd', 'e', 'n', 'c', 'e', ' '] ++ chars ['5'])) := by
  rfl
/-- V-TXT-7. -/
theorem test_ipDumptosDscp :
    txtOf (exec .ipDumptosDscp (parsed packetD))
      = some (line (asciiText Config.fmtIpTos ++ chars ['0', 'x', 'b', '8'] ++ chars [' ', 'd', 's', 'c', 'p', ' ']
        ++ chars ['4', '6'])) := by
  rfl
set_option maxRecDepth 4000 in
/-- V-TXT-8. -/
theorem test_ipDumpff :
    txtOf (exec .ipDumpff (parsed packetD))
      = some (line (asciiText Config.fmtIpFlags ++ chars ['0', 'x', '0', '2'])
        ++ line (asciiText Config.fmtIpFrag ++ chars ['0'])) := by
  rfl
/-- V-TXT-9. -/
theorem test_ipDumpproto :
    txtOf (exec .ipDumpproto (parsed packetD))
      = some (line (asciiText Config.fmtIpProto ++ chars ['i', 'c', 'm', 'p']
        ++ chars [' ', '(', '0', 'x', '0', '1', ')'])) := by
  rfl
/-- V-TXT-9a: 0x17 is udp, 0x11 is unknown. -/
theorem test_protoName : protoName 0x17 = chars ['u', 'd', 'p']
  ∧ protoName 0x11 = chars ['u', 'n', 'k', 'n', 'o', 'w', 'n'] := by decide
set_option maxRecDepth 4000 in
/-- V-TXT-11. -/
theorem test_ipDumpaddr :
    txtOf (exec .ipDumpaddr (parsed packetD))
      = some (line (asciiText Config.fmtIpSrc ++ chars ['1', '9', '2', '.', '1', '6', '8', '.', '0', '.', '1'])
        ++ line (asciiText Config.fmtIpDst ++ chars ['1', '9', '2', '.', '1', '6', '8', '.', '0', '.', '2'])) := by
  rfl
set_option maxRecDepth 4000 in
/-- V-TXT-12. -/
theorem test_ipDumpPrec :
    txtOf (exec .ipDumpPrec (parsed packetD))
      = some (line (asciiText Config.fmtIpVer ++ chars ['4'])
        ++ line (asciiText Config.fmtIpHl ++ chars ['5'] ++ chars [' ', '(', '2', '0', ' ', 'b', 'y', 't', 'e', 's', ')'])
        ++ line (asciiText Config.fmtIpTos ++ chars ['0', 'x', 'b', '8']
          ++ chars [' ', 'p', 'r', 'e', 'c', 'e', 'd', 'e', 'n', 'c', 'e', ' '] ++ chars ['5'])
        ++ (line (asciiText Config.fmtIpFlags ++ chars ['0', 'x', '0', '2']) ++ line (asciiText Config.fmtIpFrag
          ++ chars ['0']))
        ++ line (asciiText Config.fmtIpProto ++ chars ['i', 'c', 'm', 'p'] ++ chars [' ', '(', '0', 'x', '0', '1', ')'])
        ++ (line (asciiText Config.fmtIpSrc ++ chars ['1', '9', '2', '.', '1', '6', '8', '.', '0', '.', '1'])
          ++ line (asciiText Config.fmtIpDst ++ chars ['1', '9', '2', '.', '1', '6', '8', '.', '0', '.', '2']))) := by
  rfl
set_option maxRecDepth 4000 in
/-- V-TXT-13. -/
theorem test_ipDumpDscp :
    txtOf (exec .ipDumpDscp (parsed packetD))
      = some (line (asciiText Config.fmtIpVer ++ chars ['4'])
        ++ line (asciiText Config.fmtIpHl ++ chars ['5'] ++ chars [' ', '(', '2', '0', ' ', 'b', 'y', 't', 'e', 's', ')'])
        ++ line (asciiText Config.fmtIpTos ++ chars ['0', 'x', 'b', '8'] ++ chars [' ', 'd', 's', 'c', 'p', ' ']
          ++ chars ['4', '6'])
        ++ (line (asciiText Config.fmtIpFlags ++ chars ['0', 'x', '0', '2']) ++ line (asciiText Config.fmtIpFrag
          ++ chars ['0']))
        ++ line (asciiText Config.fmtIpProto ++ chars ['i', 'c', 'm', 'p'] ++ chars [' ', '(', '0', 'x', '0', '1', ')'])
        ++ (line (asciiText Config.fmtIpSrc ++ chars ['1', '9', '2', '.', '1', '6', '8', '.', '0', '.', '1'])
          ++ line (asciiText Config.fmtIpDst ++ chars ['1', '9', '2', '.', '1', '6', '8', '.', '0', '.', '2']))) := by
  rfl
set_option maxRecDepth 4000 in
/-- V-TXT-10, S7. -/
theorem test_icmpDumps :
    txtOf (exec .icmpDumps (parsed packetD))
      = some (line (chars ['i', 'c', 'm', 'p', ' '] ++ chars ['e', 'c', 'h', 'o', ' ', 'r', 'e', 'q', 'u', 'e', 's', 't']
        ++ chars [' ', 'i', 'd', '='] ++ chars ['4', '6', '6', '0'] ++ chars [' ', 's', 'e', 'q', '='] ++ chars ['7'])) := by
  rfl
/-- V-ICMP-15. -/
theorem test_icmpDumps_code :
    txtOf (exec .icmpDumps (withIcmp 0xff 0xff))
      = some (line (chars ['i', 'c', 'm', 'p', ' '] ++ chars ['u', 'n', 'k', 'n', 'o', 'w', 'n']
        ++ chars [' ', 'c', 'o', 'd', 'e', '=', '\''] ++ chars ['u', 'n', 'k', 'n', 'o', 'w', 'n']
        ++ chars ['\''] ++ chars [' ', '(', '0', 'x', 'f', 'f', ')'])) := by
  rfl
set_option maxRecDepth 4000 in
/-- V-TXT-15. -/
theorem test_icmpDumpd :
    txtOf (exec .icmpDumpd (parsed (packetD.set 3 0x20 ++ [0xde, 0xad, 0xbe, 0xef])))
      = some (line (asciiText Config.fmtIcmpType ++ chars ['e', 'c', 'h', 'o', ' ', 'r', 'e', 'q', 'u', 'e', 's', 't'])
        ++ line (asciiText Config.fmtIcmpCsum ++ chars ['0', 'x', 'e', '5', 'c', '3'])
        ++ line (asciiText Config.fmtIcmpId ++ chars ['4', '6', '6', '0'])
        ++ line (asciiText Config.fmtIcmpSeq ++ chars ['7'])
        ++ hexdump [0xde, 0xad, 0xbe, 0xef]) := by
  have h : echoDataLen (parsed (packetD.set 3 0x20 ++ [0xde, 0xad, 0xbe, 0xef])) 0 = .ok 4 := by decide
  have e : exec .icmpDumpd (parsed (packetD.set 3 0x20 ++ [0xde, 0xad, 0xbe, 0xef]))
      = finishText (parsed (packetD.set 3 0x20 ++ [0xde, 0xad, 0xbe, 0xef]))
        (textIcmpEchoDetail (parsed (packetD.set 3 0x20 ++ [0xde, 0xad, 0xbe, 0xef])) 0 20 8 0xe5c3) := by rfl
  rw [e]
  unfold textIcmpEchoDetail
  rw [h]
  rfl
/-- V-TXT-18. -/
theorem test_icmpDumpd_inconsistent :
    resStatus (exec .icmpDumpd (parsed (packetD.set 3 0x1b))) = some (0, 0x0F) := by decide
/-- R235, ten bytes: pairs, a line of eight, a short last line. -/
theorem test_hexdump :
    hexdump [0, 1, 2, 3, 4, 5, 6, 7, 8, 9]
      = (chars ['0', '0'] ++ chars ['0', '1']) ++ chars [' ']
        ++ (chars ['0', '2', '0', '3', ' ', '0', '4', '0', '5']) ++ chars [' ']
        ++ chars ['0', '6', '0', '7'] ++ eol ++ chars ['0', '8', '0', '9'] ++ eol := by
  simp [hexdump, hexdumpFrom, hex2, hexDigit, chars]

/-! ### The host's actions, reset, illegal words (V-HOST, V-DEC) -/

/-- The state a step leaves, when it is a next state. -/
def after (o : Host.Outcome State Fault Refusal) (s : State) : State :=
  match o with
  | .next t => t
  | .fault _ => s
  | .refused _ => s

theorem test_load (h : 28 ≤ Config.bufSize) :
    (hostLoad (packetD.map (BitVec.ofNat 8)) located)
      = .next { bufOf packetD with
          vEth := View.dropped 0, vIp := View.dropped 1, vIcmp := View.dropped 2, vEcho := View.dropped 3,
          bufEpoch := 1, freeDraws := 4 } := by
  unfold hostLoad
  rw [if_pos (by exact h)]
  rfl
theorem test_load_too_long :
    hostLoad (List.replicate (Config.bufSize + 1) 0) State.reset = .refused .loadTooLong := by
  unfold hostLoad
  rw [if_neg (by simp)]
theorem test_release : resStatus (step { located with pending := [.release], res := 6 }) = some (6, 0) := by decide
/-- V-HOST-4: a view is an offset, not a snapshot. -/
theorem test_write :
    resStatus (exec .icmpGetid (after (step { located with pending := [.write 24 0xab] }) located)) = some (0xAB34, 0) := by
  decide
theorem test_write_past : hostWrite 28 0 located = .refused .writeNotAvailable := rfl
theorem test_read : (after (step { located with pending := [.read 25] }) located).seen = [.byte 0x34#8] := by decide
theorem test_read_no_buffer : hostRead 0 State.reset = .refused .readNotAvailable := rfl
theorem test_setArg :
    step { State.reset with pending := [.setArg 1 7] } = .next { State.reset with arg1 := 7 } := rfl
theorem test_cmd : step (State.reset.withFetchWord 32 0x25000000) = exec .ipNextid State.reset := rfl
/-- V-DEC-10: legality is tested first. -/
theorem test_cmd_illegal :
    step { State.reset with tmplv := true, pending := [.cmd 0x20000001#32] }
      = .next { State.reset with tmplv := true, status := 0x13 } := rfl
theorem test_readTxt :
    step { State.reset with txt := [1, 2, 3], pending := [.readTxt 2] }
      = .next { State.reset with txt := [3], seen := [.text [1, 2]] } := rfl
theorem test_readRes :
    step { State.reset with res := 5, status := 3, pending := [.readRes] }
      = .next { State.reset with res := 5, status := 3, seen := [.result 5 3] } := rfl
theorem test_reset_event :
    step { located with res := 5, txt := [1], pending := [.reset] } = .next { State.reset with bufEpoch := 1 } := rfl
theorem test_idle : step located = .next located := rfl

/-! ### A state that meets the hypotheses of each statement, clause by clause -/

theorem witness_DecodeEncode : wellFormed (.ipParse 65535) = true ∧ wellFormed .icmpDumpd = true := by decide
theorem witness_DecodedWordIsEncoding :
    decode 0x2100FFFF#32 = .ok (.ipParse 65535) ∧ decode 0x290E0000#32 = .ok .ipGetDst := by decide
theorem witness_IllegalCommands :
    illegalWord 0x4B000000#32 ∧ illegalWord 0x4A000001#32 ∧ illegalWord 0x01010000#32 ∧ illegalWord 0x290F0000#32
      ∧ ¬ illegalWord 0x290E0000#32 ∧ ¬ illegalWord 0x2100FFFF#32 := by
  unfold illegalWord illegalFields
  refine ⟨?_, ?_, ?_, ?_, ?_, ?_⟩ <;> decide
theorem witness_StepRunsCommand :
    HostEvent.cmd 0x2100000E#32 :: [] = { State.reset with pending := [.cmd 0x2100000E#32] : State }.pending
      ∧ decode 0x2100000E#32 = .ok (.ipParse 14) ∧ wellFormed (.ipParse 14) = true
      ∧ decodeTableWord 32 0x2100000E = some (.ipParse 14) := by
  exact ⟨rfl, by decide, by decide, by decide⟩
theorem witness_Convert16Result :
    ∃ s : State, ∃ v : Nat, v = 65535
      ∧ v = (if Config.hostOrder = .le then s.arg0.toNat % 256 * 256 + s.arg0.toNat / 256 % 256 else s.arg0.toNat % 65536) := by
  refine ⟨{ State.reset with arg0 := 0x0000FFFF }, 65535, rfl, ?_⟩
  split <;> decide
theorem witness_Convert32Result :
    ∃ s : State, ∃ v : Nat, v = 0xFFFFFFFF
      ∧ v = (if Config.hostOrder = .le then
          s.arg0.toNat % 256 * 2 ^ 24 + s.arg0.toNat / 256 % 256 * 2 ^ 16 + s.arg0.toNat / 2 ^ 16 % 256 * 256
            + s.arg0.toNat / 2 ^ 24
        else s.arg0.toNat) := by
  refine ⟨{ State.reset with arg0 := 0xFFFFFFFF }, 0xFFFFFFFF, rfl, ?_⟩
  split <;> decide
theorem witness_ConvertersInvolution :
    (Instr.h2n16, Instr.n2h16) ∈ [(Instr.h2n16, Instr.n2h16), (Instr.n2h16, Instr.h2n16)]
      ∧ (Instr.h2n32, Instr.n2h32) ∈ [(Instr.h2n32, Instr.n2h32), (Instr.n2h32, Instr.h2n32)] := by decide
theorem witness_RawTypeConverts : eParsed.vEth.v = true ∧ eParsed.vEth.base.toNat + 14 ≤ eParsed.len.toNat := by decide
theorem witness_EthParse :
    (bufOf packetD).bufv = true ∧ 14 + 14 ≤ (bufOf packetD).len.toNat ∧ (bufOf packetD).len.toNat < 15 + 14
      ∧ State.reset.bufv = false := by
  exact ⟨rfl, by decide, by decide, rfl⟩
theorem witness_EthExtractors :
    eParsed.vEth.v = true ∧ eParsed.vEth.base.toNat = 0 ∧ 0 + 14 ≤ eParsed.len.toNat := by decide
theorem witness_AbsentViewFails :
    ((parsed packetD).vEth.v = false ∧ .ethDumpd ∈ ethViewOps) ∧ (eParsed.vIp.v = false ∧ .icmpDumpd ∈ ipViewOps)
      ∧ (eParsed.vIcmp.v = false ∧ .icmpDumpd ∈ icmpViewOps)
      ∧ ((parsed packetD).vEcho.v = false ∧ .icmpGetseq ∈ echoViewOps) := by decide
theorem witness_AbsentBufferFails :
    State.reset.bufv = false ∧ .ethParse 0 ∈ rawRefOps 0 ∧ .ipTmplcopy 65535 ∈ rawRefOps 65535 := by
  exact ⟨rfl, by decide, by decide⟩
theorem witness_IpInit :
    State.reset.tmplv = false ∧ { State.reset with tmplv := true : State }.tmplv = true := by
  exact ⟨rfl, rfl⟩
theorem witness_IpTmplcopy :
    { bufOf packetD with tmplv := true }.tmplv = true ∧ { bufOf packetD with tmplv := true }.bufv = true
      ∧ 8 + 20 ≤ { bufOf packetD with tmplv := true }.len.toNat ∧ { bufOf packetD with tmplv := true }.len.toNat < 9 + 20
      ∧ State.reset.tmplv = false ∧ { State.reset with tmplv := true : State }.bufv = false := by
  exact ⟨rfl, rfl, by decide, by decide, rfl, rfl⟩
theorem witness_IpParseCompletes_icmp :
    (bufOf (packetD.take 21)).bufv = true ∧ 0 + 20 ≤ (bufOf (packetD.take 21)).len.toNat
      ∧ ((bufOf (packetD.take 21)).readByte 0).toNat / 16 = 4
      ∧ 20 = 4 * (((bufOf (packetD.take 21)).readByte 0).toNat % 16)
      ∧ 0x01 = ((bufOf (packetD.take 21)).readByte (0 + 9)).toNat ∧ 0 + 20 < (bufOf (packetD.take 21)).len.toNat := by decide
theorem witness_IpParseCompletes_unknown :
    (bufOf ((packetD.take 20).set 9 0x11)).bufv = true ∧ 0 + 20 ≤ (bufOf ((packetD.take 20).set 9 0x11)).len.toNat
      ∧ ((bufOf ((packetD.take 20).set 9 0x11)).readByte 0).toNat / 16 = 4
      ∧ 20 = 4 * (((bufOf ((packetD.take 20).set 9 0x11)).readByte 0).toNat % 16)
      ∧ 0x11 = ((bufOf ((packetD.take 20).set 9 0x11)).readByte (0 + 9)).toNat := by decide
theorem witness_IpParseFails :
    State.reset.bufv = false
      ∧ ((bufOf packetD).bufv = true ∧ (bufOf packetD).len.toNat < 9 + 20)
      ∧ (0 + 20 ≤ (bufOf (packetD.set 0 0x55)).len.toNat ∧ ((bufOf (packetD.set 0 0x55)).readByte 0).toNat / 16 ≠ 4)
      ∧ (0 + 20 ≤ (bufOf (packetD.take 20)).len.toNat ∧ ((bufOf (packetD.take 20)).readByte 0).toNat / 16 = 4
        ∧ ((bufOf (packetD.take 20)).readByte (0 + 9)).toNat = 0x01
        ∧ (bufOf (packetD.take 20)).len.toNat ≤ 0 + 4 * (((bufOf (packetD.take 20)).readByte 0).toNat % 16)) := by
  refine ⟨rfl, ?_⟩
  decide
theorem witness_VersionTests :
    (bufOf packetD).bufv = true ∧ 27 < (bufOf packetD).len.toNat ∧ (bufOf packetD).len.toNat ≤ 28
      ∧ State.reset.bufv = false ∧ 65535 ≤ 65535 := by
  exact ⟨rfl, by decide, by decide, rfl, by decide⟩
theorem witness_IpSetaddr :
    (bufOf packetD).bufv = true ∧ 8 + 20 ≤ (bufOf packetD).len.toNat ∧ (bufOf packetD).len.toNat < 9 + 20
      ∧ State.reset.bufv = false := by
  exact ⟨rfl, by decide, by decide, rfl⟩
/-- V_IP is established at `b`, and the header's 20 bytes are inside the buffer. -/
abbrev IpView (s : State) (b : Nat) : Prop :=
  s.vIp.v = true ∧ s.vIp.base.toNat = b ∧ b + 20 ≤ s.len.toNat

/-- V_ICMP is established at `m`. -/
abbrev IcmpView (s : State) (m : Nat) : Prop :=
  s.vIcmp.v = true ∧ s.vIcmp.base.toNat = m

/-- V_ICMP is established at `m`, where the buffer holds the type `t`. -/
abbrev IcmpType (s : State) (m t : Nat) : Prop :=
  IcmpView s m ∧ m < s.len.toNat ∧ t = (s.readByte m).toNat

/-- The header of D alone, with a total length of 20 and 19: the two sides of R159. -/
def headerOnly (tl : Nat) : State :=
  parsed ((packetD.take 20).set 3 tl)

theorem witness_IpPayload :
    (headerOnly 20).vIp.v = true ∧ (headerOnly 20).vIp.base.toNat = 0 ∧ 0 + 20 ≤ (headerOnly 20).len.toNat
      ∧ 20 = 4 * (((headerOnly 20).readByte 0).toNat % 16)
      ∧ 20 = ((headerOnly 20).readByte (0 + 2)).toNat * 256 + ((headerOnly 20).readByte (0 + 3)).toNat ∧ 20 ≤ 20
      ∧ 19 = ((headerOnly 19).readByte (0 + 2)).toNat * 256 + ((headerOnly 19).readByte (0 + 3)).toNat ∧ 19 < 20
      ∧ (headerOnly 19).vIp.v = true ∧ (headerOnly 19).vIp.base.toNat = 0 ∧ 0 + 20 ≤ (headerOnly 19).len.toNat
      ∧ 20 = 4 * (((headerOnly 19).readByte 0).toNat % 16)
      ∧ eParsed.vIp.v = false := by decide
theorem witness_IpByteExtractors : IpView (headerOnly 20) 0 := by decide
theorem witness_IpWideExtractors : IpView (headerOnly 20) 0 := by decide
theorem witness_IpDumpFirstParts : IpView (headerOnly 20) 0 := by decide
theorem witness_IpDumpLastParts : IpView (headerOnly 20) 0 := by decide
theorem witness_IpDumpIsItsParts : IpView (headerOnly 20) 0 := by decide
theorem witness_TosDumpsDiffer : IpView (headerOnly 20) 0 := by decide

/-- D cut to `n` bytes, with the type and the code of its ICMP message replaced. -/
def cut (n t c : Nat) : State :=
  parsed (((packetD.set 20 t).set 21 c).take n)

theorem witness_IcmpExtractors :
    IcmpView (cut 24 8 0) 20 ∧ 20 + 4 ≤ (cut 24 8 0).len.toNat
      ∧ IcmpView (cut 21 8 0) 20 ∧ 20 + 1 ≤ (cut 21 8 0).len.toNat ∧ (cut 21 8 0).len.toNat < 20 + 2
      ∧ (cut 22 8 0).vIcmp.v = true ∧ 20 + 2 ≤ (cut 22 8 0).len.toNat ∧ (cut 23 8 0).len.toNat < 20 + 4
      ∧ eParsed.vIcmp.v = false := by decide
theorem witness_IcmpTypeTests :
    (IcmpType (cut 21 11 0) 20 11)
      ∧ (IcmpType (cut 21 12 0) 20 12) := by decide
theorem witness_IcmpCodelblCompletes_unreach :
    IcmpView (cut 22 3 15) 20 ∧ 20 + 2 ≤ (cut 22 3 15).len.toNat
        ∧ 3 = ((cut 22 3 15).readByte 20).toNat ∧ 15 = ((cut 22 3 15).readByte (20 + 1)).toNat ∧ 15 ≤ 15 := by decide
theorem witness_IcmpCodelblCompletes_redirect :
    IcmpView (cut 22 5 Config.redirCodeMax.val) 20
      ∧ 20 + 2 ≤ (cut 22 5 Config.redirCodeMax.val).len.toNat
      ∧ 5 = ((cut 22 5 Config.redirCodeMax.val).readByte 20).toNat
      ∧ Config.redirCodeMax.val = ((cut 22 5 Config.redirCodeMax.val).readByte (20 + 1)).toNat
      ∧ Config.redirCodeMax.val ≤ Config.redirCodeMax.val := by
  have h : (BitVec.ofNat 8 Config.redirCodeMax.val).toNat = Config.redirCodeMax.val := by
    rw [BitVec.toNat_ofNat]
    exact Nat.mod_eq_of_lt Config.redirCodeMax.isLt
  exact ⟨⟨rfl, rfl⟩, by decide, rfl, h.symm, Nat.le_refl _⟩
theorem witness_IcmpCodelblCompletes_timeExceeded :
    IcmpView (cut 22 11 Config.timexCodeMax.val) 20
      ∧ 20 + 2 ≤ (cut 22 11 Config.timexCodeMax.val).len.toNat
      ∧ 11 = ((cut 22 11 Config.timexCodeMax.val).readByte 20).toNat
      ∧ Config.timexCodeMax.val = ((cut 22 11 Config.timexCodeMax.val).readByte (20 + 1)).toNat
      ∧ Config.timexCodeMax.val ≤ Config.timexCodeMax.val := by
  have h : (BitVec.ofNat 8 Config.timexCodeMax.val).toNat = Config.timexCodeMax.val := by
    rw [BitVec.toNat_ofNat]
    exact Nat.mod_eq_of_lt Config.timexCodeMax.isLt
  exact ⟨⟨rfl, rfl⟩, by decide, rfl, h.symm, Nat.le_refl _⟩
theorem witness_IcmpCodelblFails :
    (IcmpType (cut 21 8 0) 20 8)
      ∧ (IcmpType (cut 21 3 0) 20 3 ∧ (cut 21 3 0).len.toNat < 20 + 2)
      ∧ (IcmpType (cut 22 3 16) 20 3 ∧ 20 + 2 ≤ (cut 22 3 16).len.toNat
        ∧ 16 = ((cut 22 3 16).readByte (20 + 1)).toNat ∧ 15 < 16)
      ∧ (IcmpType (cut 22 4 0) 20 4 ∧ 20 + 2 ≤ (cut 22 4 0).len.toNat) := by decide
theorem witness_IcmpClass :
    (IcmpType (cut 21 8 0) 20 8
        ∧ 0 = (if 8 = 0 ∨ 8 = 8 then 0 else if 8 = 3 then 1 else if 8 = 5 then 2 else if 8 = 11 then 3 else 4))
      ∧ (IcmpType (cut 21 12 0) 20 12
        ∧ 4 = (if 12 = 0 ∨ 12 = 8 then 0 else if 12 = 3 then 1 else if 12 = 5 then 2 else if 12 = 11 then 3 else 4))
      ∧ (IcmpType (cut 22 11 0) 20 11
        ∧ 3 = (if 11 = 0 ∨ 11 = 8 then 0 else if 11 = 3 then 1 else if 11 = 5 then 2 else if 11 = 11 then 3 else 4)
        ∧ 20 + 2 ≤ (cut 22 11 0).len.toNat)
      ∧ (IcmpType (cut 21 3 0) 20 3
        ∧ 1 = (if 3 = 0 ∨ 3 = 8 then 0 else if 3 = 3 then 1 else if 3 = 5 then 2 else if 3 = 11 then 3 else 4)
        ∧ (cut 21 3 0).len.toNat < 20 + 2) := by decide
theorem witness_IcmpEcholoc :
    (IcmpType (cut 21 0 0) 20 0)
      ∧ (IcmpType (cut 21 11 0) 20 11) := by decide

/-- D cut to `n` bytes, with V_ECHO at 24. -/
def cutEcho (n : Nat) : State :=
  { cut n 8 0 with vEcho := ⟨true, 24⟩ }

theorem witness_IcmpEchoFields :
    (cutEcho 28).vEcho.v = true ∧ (cutEcho 28).vEcho.base.toNat = 24 ∧ 24 + 4 ≤ (cutEcho 28).len.toNat
      ∧ (cutEcho 25).vEcho.v = true ∧ (cutEcho 25).vEcho.base.toNat = 24 ∧ (cutEcho 25).len.toNat < 24 + 2
      ∧ 24 + 2 ≤ (cutEcho 26).len.toNat ∧ (cutEcho 27).len.toNat < 24 + 4
      ∧ eParsed.vEcho.v = false := by decide
theorem witness_HexFormat : 255 < 256 ∧ 65535 < 65536 ∧ 15 < 16 := by decide
theorem witness_HexdumpLines :
    [1, 2, 3, 4, 5, 6] ≠ ([] : List Byte) ∧ ([1, 2, 3, 4, 5, 6] : List Byte).length ≤ 6
      ∧ ([1, 2, 3, 4, 5, 6, 7, 8] : List Byte).length = 8 := by decide
theorem witness_TypeLabels : 1 ∈ [1, 2, 4, 6, 7, 9, 10] ∧ 11 < 12 := by decide
theorem witness_CodeLabels :
    (0 ≤ 15 ∧ 15 ≤ 15) ∧ Config.redirCodeMax.val ≤ Config.redirCodeMax.val
      ∧ Config.timexCodeMax.val ≤ Config.timexCodeMax.val
      ∧ ((3 ≠ 8 ∧ 3 ≠ 0) ∧ 15 < 16) ∧ ((5 ≠ 8 ∧ 5 ≠ 0) ∧ Config.redirCodeMax.val < Config.redirCodeMax.val + 1)
      ∧ ((11 ≠ 8 ∧ 11 ≠ 0) ∧ Config.timexCodeMax.val < Config.timexCodeMax.val + 1) ∧ (4 ≠ 8 ∧ 4 ≠ 0) :=
  ⟨by decide, Nat.le_refl _, Nat.le_refl _, by decide, ⟨by decide, Nat.lt_succ_self _⟩, ⟨by decide, Nat.lt_succ_self _⟩,
    by decide⟩
theorem witness_DumpAllOrNothing : .ethDumps ∈ dumpOps ∧ .icmpDumpd ∈ dumpOps := by decide
theorem witness_EthDumps :
    eParsed.vEth.v = true ∧ eParsed.vEth.base.toNat = 0 ∧ 0 + 14 ≤ eParsed.len.toNat
      ∧ 0x0800 = (eParsed.readByte (0 + 12)).toNat * 256 + (eParsed.readByte (0 + 13)).toNat := by decide
theorem witness_IcmpDumps :
    (IcmpType (cut 28 0 0) 20 0 ∧ 20 + 8 ≤ (cut 28 0 0).len.toNat)
      ∧ (IcmpType (cut 27 8 0) 20 8 ∧ (cut 27 8 0).len.toNat < 20 + 8)
      ∧ (IcmpType (cut 22 3 0) 20 3 ∧ 20 + 2 ≤ (cut 22 3 0).len.toNat)
      ∧ (IcmpType (cut 21 3 0) 20 3 ∧ (cut 21 3 0).len.toNat < 20 + 2) := by decide

/-- D with the low byte of its total length replaced and four data bytes appended. -/
def withLength (tl : Nat) : State :=
  parsed (packetD.set 3 tl ++ [0xde, 0xad, 0xbe, 0xef])

theorem witness_IcmpDumpdEcho :
    IpView (withLength 32) 0
        ∧ IcmpView (withLength 32) 20 ∧ 20 = 4 * (((withLength 32).readByte 0).toNat % 16)
        ∧ 32 = ((withLength 32).readByte (0 + 2)).toNat * 256 + ((withLength 32).readByte (0 + 3)).toNat
        ∧ 20 + 8 ≤ (withLength 32).len.toNat ∧ 8 = ((withLength 32).readByte 20).toNat
        ∧ 32 = 20 + 8 + 4 ∧ 20 + 8 + 4 ≤ (withLength 32).len.toNat := by decide
theorem witness_IcmpDumpdOther :
    (cut 24 3 0).vIp.v = true ∧ IcmpView (cut 24 3 0) 20
      ∧ 20 + 4 ≤ (cut 24 3 0).len.toNat ∧ 3 = ((cut 24 3 0).readByte 20).toNat
        ∧ 0 = ((cut 24 3 0).readByte (20 + 1)).toNat := by decide
theorem witness_IcmpDumpdFails_short :
    IpView (cut 23 8 0) 0
        ∧ IcmpView (cut 23 8 0) 20 ∧ 20 = 4 * (((cut 23 8 0).readByte 0).toNat % 16)
        ∧ 28 = ((cut 23 8 0).readByte (0 + 2)).toNat * 256 + ((cut 23 8 0).readByte (0 + 3)).toNat
        ∧ 20 < (cut 23 8 0).len.toNat ∧ 8 = ((cut 23 8 0).readByte 20).toNat ∧ (cut 23 8 0).len.toNat < 20 + 4
        ∧ (cut 27 8 0).len.toNat < 20 + 8 ∧ 8 = ((cut 27 8 0).readByte 20).toNat := by decide
theorem witness_IcmpDumpdFails_inconsistent :
    IpView (withLength 27) 0
        ∧ IcmpView (withLength 27) 20 ∧ 20 = 4 * (((withLength 27).readByte 0).toNat % 16)
        ∧ 27 = ((withLength 27).readByte (0 + 2)).toNat * 256 + ((withLength 27).readByte (0 + 3)).toNat
        ∧ 20 < (withLength 27).len.toNat ∧ 8 = ((withLength 27).readByte 20).toNat
        ∧ 20 + 8 ≤ (withLength 27).len.toNat ∧ 27 < 20 + 8 := by decide
theorem witness_IcmpDumpdFails_dataPastLen :
    IpView (withLength 33) 0
        ∧ IcmpView (withLength 33) 20 ∧ 20 = 4 * (((withLength 33).readByte 0).toNat % 16)
        ∧ 33 = ((withLength 33).readByte (0 + 2)).toNat * 256 + ((withLength 33).readByte (0 + 3)).toNat
        ∧ 20 < (withLength 33).len.toNat ∧ 8 = ((withLength 33).readByte 20).toNat
        ∧ 20 + 8 ≤ (withLength 33).len.toNat ∧ 20 + 8 < 33 ∧ (withLength 33).len.toNat < 20 + (33 - 20) := by decide

/-- A state in which the host is about to do `e`. -/
def about (e : HostEvent) (s : State) : State :=
  { s with pending := [e] }

theorem witness_HostLoadRelease :
    (about (.load (List.replicate Config.bufSize 0)) located).pending
        = [.load (List.replicate Config.bufSize 0)]
      ∧ (List.replicate Config.bufSize (0 : Byte)).length ≤ Config.bufSize
      ∧ (about .release located).pending = [.release] := by
  refine ⟨rfl, ?_, rfl⟩
  rw [List.length_replicate]
theorem witness_HostWrite :
    (about (.write 27 1) located).pending = [.write 27 1] ∧ (about (.write 27 1) located).bufv = true
      ∧ 27 < (about (.write 27 1) located).len.toNat
      ∧ (about (.write 28 1) located).pending = [.write 28 1] ∧ (about (.write 28 1) located).len.toNat ≤ 28
      ∧ (about (.write 0 1) State.reset).pending = [.write 0 1] ∧ (about (.write 0 1) State.reset).bufv = false := by
  exact ⟨rfl, rfl, by decide, rfl, by decide, rfl, rfl⟩
theorem witness_HostRead :
    (about (.read 27) located).pending = [.read 27] ∧ (about (.read 27) located).bufv = true
      ∧ 27 < (about (.read 27) located).len.toNat
      ∧ (about (.read 28) located).pending = [.read 28] ∧ (about (.read 28) located).len.toNat ≤ 28
      ∧ (about (.read 0) State.reset).pending = [.read 0] ∧ (about (.read 0) State.reset).bufv = false := by
  exact ⟨rfl, rfl, by decide, rfl, by decide, rfl, rfl⟩
theorem witness_HostSetArg :
    (about (.setArg 0 5) located).pending = [.setArg 0 5]
      ∧ (about (.setArg 1 5) located).pending = [.setArg 1 5] := ⟨rfl, rfl⟩
theorem witness_HostReads :
    (about .readRes located).pending = [.readRes] ∧ (about (.readTxt 9) located).pending = [.readTxt 9] := ⟨rfl, rfl⟩
theorem witness_ResetEvent : (about .reset located).pending = [.reset] := rfl
theorem witness_EveryOperationEnds :
    ¬ (Instr.ipInit = .ipInit ∧ State.reset.tmplv = true) ∧ ¬ (Instr.n2h16 = .ipInit ∧ located.tmplv = true) := by
  exact ⟨fun h => Bool.noConfusion h.2, fun h => Instr.noConfusion h.1⟩
theorem witness_WhoWritesWhat :
    exec .ipNextid located
        = .next { located with seq := located.seq + 1, res := BitVec.ofNat 64 located.seq.toNat }
      ∧ (∃ t, exec (.ipSetaddr 0) located = .next t) ∧ (∃ t, exec .ethDumps eParsed = .next t) := ⟨rfl, ⟨_, rfl⟩, ⟨_, rfl⟩⟩
/-- A buffer of one byte fits every BUF_SIZE: a state of the invariant that is not the reset state, and its step. -/
theorem witness_StepKeepsInvariant :
    State.Inv (about (.read 0) (bufOf [0x45]))
      ∧ step (about (.read 0) (bufOf [0x45])) = .next { bufOf [0x45] with seen := [.byte 0x45#8] } := by
  refine ⟨⟨by decide, fun a => ?_, ?_, by decide, by decide, by decide, by decide, by decide, by decide, by decide,
    by decide⟩, rfl⟩
  · change (Memory.lookup [(0, 0x45#8)] a).isSome = true ↔ a < 1
    by_cases h : a = 0
    · subst h; decide
    · simp [Memory.lookup, Ne.symm h, h]
  · exact Nat.succ_le_succ (Nat.zero_le _)
/-- One byte fits every BUF_SIZE: a run from reset that the statement speaks of. -/
theorem witness_ReachableViews :
    ∃ t, Host.Core.run Sys2Proof.core 1 { State.reset with pending := [.load [0x45]] } = .next t ∧ t.bufv = true := by
  have h : ([0x45] : List Byte).length ≤ Config.bufSize := Nat.succ_le_succ (Nat.zero_le _)
  have e : perform (.load [0x45]) State.reset
      = .next (State.dropViews
        { State.reset with buf := [(0, 0x45)], bufEpoch := 1, len := 1, bufv := true }) := by
    change hostLoad _ _ = _
    unfold hostLoad
    rw [if_pos h]
    rfl
  exact ⟨_, run_next 0 { State.reset with pending := [.load [0x45]] } _ e, rfl⟩
/-- Loading E and D and parsing them establishes all four views, whenever BUF holds the 42 bytes (program P1 of
95_test_vectors.md). BUF_SIZE is OPEN, so that is a premise. -/
theorem witness_ReachableViews_all (h : 42 ≤ Config.bufSize) :
    ∃ t, Host.Core.run Sys2Proof.core 4
        { State.reset with
          pending := [.load ((frameE ++ packetD).map (BitVec.ofNat 8)), .cmd 0x10000000#32, .cmd 0x2100000E#32,
            .cmd 0x35000000#32] } = .next t
      ∧ t.vEth = ⟨true, 0⟩ ∧ t.vIp = ⟨true, 14⟩ ∧ t.vIcmp = ⟨true, 34⟩ ∧ t.vEcho = ⟨true, 38⟩ := by
  have e : perform (.load ((frameE ++ packetD).map (BitVec.ofNat 8)))
        { State.reset with pending := [.cmd 0x10000000#32, .cmd 0x2100000E#32, .cmd 0x35000000#32] }
      = .next (State.dropViews
        { State.reset with
          pending := [.cmd 0x10000000#32, .cmd 0x2100000E#32, .cmd 0x35000000#32],
          buf := (bufOf (frameE ++ packetD)).buf, bufEpoch := 1, len := 42, bufv := true }) := by
    change hostLoad _ _ = _
    unfold hostLoad
    rw [if_pos (by exact h)]
    rfl
  have e2 := run_next 3
    { State.reset with
      pending := [.load ((frameE ++ packetD).map (BitVec.ofNat 8)), .cmd 0x10000000#32, .cmd 0x2100000E#32,
        .cmd 0x35000000#32] } _ e
  exact ⟨_, e2.trans rfl, rfl, rfl, rfl, rfl⟩
theorem witness_UnspecifiedNeverObservable :
    State.SameVisible State.reset { State.reset with tmpl := Vector.replicate 20 1, vIp := ⟨false, 7⟩, bufEpoch := 3 } :=
  ⟨rfl, rfl, rfl, rfl, rfl, rfl, fun _ h => absurd h (Nat.not_lt_zero _), rfl, rfl, fun h => Bool.noConfusion h,
    ⟨rfl, fun _ => rfl⟩, ⟨rfl, fun h => Bool.noConfusion h⟩, ⟨rfl, fun _ => rfl⟩, ⟨rfl, fun _ => rfl⟩, rfl, rfl, rfl⟩
theorem witness_InitOnceNeverFaults :
    initOnce State.reset.tmplv [.cmd 0x20000000#32, .cmd 0x20000001#32, .reset, .cmd 0x20000000#32] = true ∧
      initOnce true [.cmd 0x20000000#32] = false := by
  exact ⟨rfl, rfl⟩

end Sys2Proof.Tests
end

/-! # The state family: which operation changes what, the invariant, the host's actions

The proofs of O53, O55, O56, O12, O13, O5, O45 to O49, O51 and O54. The three tier 3 statements go through one inversion lemma,
`ExecEffect.of_exec`: whatever an operation answers, the next state is one of the ten effects of `ExecEffect`. -/

namespace Sys2Proof.Machine

/-! ## The texts of the dump operations are 7-bit -/

/-- Whenever a text computation succeeds, its text is 7-bit ASCII (44_text_dump.md R221). -/
def AsciiResult (r : Except Reason Text) : Prop := ∀ p, r = .ok p → Ascii p

namespace AsciiResult

theorem ok {t : Text} (h : Ascii t) : AsciiResult (.ok t) := by
  intro p hp
  cases hp
  exact h

theorem bind {α : Type} {x : Except Reason α} {f : α → Except Reason Text} (h : ∀ a, AsciiResult (f a)) :
    AsciiResult (x >>= f) := by
  intro p hp
  obtain ⟨a, -, ha⟩ := (bind_eq_ok x f p).mp hp
  exact h a p ha

/-- A part of a text may be assumed 7-bit by what follows it. -/
theorem bindText {x : Except Reason Text} {f : Text → Except Reason Text} (hx : AsciiResult x)
    (h : ∀ t, Ascii t → AsciiResult (f t)) : AsciiResult (x >>= f) := by
  intro p hp
  obtain ⟨t, ht, hf⟩ := (bind_eq_ok x f p).mp hp
  exact h t (hx t ht) p hf

variable (s : State) (b : Nat)

theorem textIpVer : AsciiResult (textIpVer s b) :=
  bind fun _ => ok (ascii_line (ascii_append (ascii_asciiText _) (ascii_dec _)))

theorem textIpHl : AsciiResult (textIpHl s b) :=
  bind fun _ => ok (ascii_line (ascii_append (ascii_append (ascii_asciiText _) (ascii_dec _))
    (ascii_inParens (ascii_append (ascii_dec _) (by decide)))))

/-- The line of both IP.DUMPTOS operations, whatever the word between the raw byte and the number. -/
theorem ascii_tosLine {word : Text} (hw : Ascii word) (t v : Nat) :
    Ascii (line (asciiText Config.fmtIpTos ++ prefixedHex2 t ++ word ++ dec v)) :=
  ascii_line (ascii_append (ascii_append (ascii_append (ascii_asciiText _) (ascii_prefixedHex2 _)) hw) (ascii_dec _))

theorem textIpTosPrec : AsciiResult (textIpTosPrec s b) :=
  bind fun t => ok (ascii_tosLine (by decide) t _)

theorem textIpTosDscp : AsciiResult (textIpTosDscp s b) :=
  bind fun t => ok (ascii_tosLine (by decide) t _)

theorem textIpFf : AsciiResult (textIpFf s b) :=
  bind fun _ => ok (ascii_append (ascii_line (ascii_append (ascii_asciiText _) (ascii_prefixedHex2 _)))
    (ascii_line (ascii_append (ascii_asciiText _) (ascii_dec _))))

theorem textIpProto : AsciiResult (textIpProto s b) :=
  bind fun _ => ok (ascii_line (ascii_append (ascii_append (ascii_asciiText _) (ascii_protoName _))
    (ascii_inParens (ascii_prefixedHex2 _))))

theorem textIpAddr : AsciiResult (textIpAddr s b) :=
  bind fun _ => bind fun _ => ok (ascii_append (ascii_line (ascii_append (ascii_asciiText _) (ascii_ipaddr _)))
    (ascii_line (ascii_append (ascii_asciiText _) (ascii_ipaddr _))))

theorem textIpAll {tos : State → Nat → Except Reason Text} (ht : AsciiResult (tos s b)) :
    AsciiResult (textIpAll tos s b) :=
  bindText (textIpVer s b) fun _ h1 => bindText (textIpHl s b) fun _ h2 => bindText ht fun _ h3 =>
    bindText (textIpFf s b) fun _ h4 => bindText (textIpProto s b) fun _ h5 => bindText (textIpAddr s b) fun _ h6 =>
      ok (ascii_append (ascii_append (ascii_append (ascii_append (ascii_append h1 h2) h3) h4) h5) h6)

theorem textIcmpEchoSummary (m t : Nat) : AsciiResult (textIcmpEchoSummary s m t) :=
  bind fun _ => bind fun _ => ok (ascii_line (ascii_append (ascii_append (ascii_append (ascii_append
    (ascii_append (by decide) (ascii_typeLabelOrUnknown t)) (by decide)) (ascii_dec _)) (by decide)) (ascii_dec _)))

theorem textIcmpCodeSummary (m t : Nat) : AsciiResult (textIcmpCodeSummary s m t) :=
  bind fun _ => ok (ascii_line (ascii_append (ascii_append (ascii_append (ascii_append
    (ascii_append (by decide) (ascii_typeLabelOrUnknown t)) (by decide)) (ascii_codeLabelOrUnknown t _)) (by decide))
    (ascii_inParens (ascii_prefixedHex2 _))))

theorem textIcmpEchoDetail (ipb m t cs : Nat) : AsciiResult (textIcmpEchoDetail s ipb m t cs) :=
  bind fun _ => bind fun _ => bind fun _ => bind fun _ => ok (ascii_append (ascii_append (ascii_append (ascii_append
    (ascii_line (ascii_append (ascii_asciiText _) (ascii_typeLabelOrUnknown t)))
    (ascii_line (ascii_append (ascii_asciiText _) (ascii_prefixedHex4 cs))))
    (ascii_line (ascii_append (ascii_asciiText _) (ascii_dec _))))
    (ascii_line (ascii_append (ascii_asciiText _) (ascii_dec _)))) (ascii_hexdump _))

theorem textIcmpCodeDetail (m t cs : Nat) : AsciiResult (textIcmpCodeDetail s m t cs) :=
  bind fun _ => ok (ascii_append (ascii_append
    (ascii_line (ascii_append (ascii_asciiText _) (ascii_typeLabelOrUnknown t)))
    (ascii_line (ascii_append (ascii_append (ascii_asciiText _) (ascii_codeLabelOrUnknown t _))
      (ascii_inParens (ascii_prefixedHex2 _)))))
    (ascii_line (ascii_append (ascii_asciiText _) (ascii_prefixedHex4 cs))))

theorem ite {c : Prop} [Decidable c] {x y : Except Reason Text} (hx : AsciiResult x) (hy : AsciiResult y) :
    AsciiResult (if c then x else y) := by
  split
  · exact hx
  · exact hy

end AsciiResult

/-! ## Everything an operation can do -/

/-- The effects of the 56 operations: `ExecEffect s i t` lists what the next state `t` of operation `i` begun in `s` can be,
with the guards the operation has checked. -/
inductive ExecEffect (s : State) : Instr → State → Prop where
  /-- A failure writes STATUS alone (60_exceptions.md R262). -/
  | failed (i : Instr) (r : Reason) : ExecEffect s i (s.fail r)
  /-- RES and STATUS alone. -/
  | answered (i : Instr) (v : Nat) : ExecEffect s i (s.succeed v)
  /-- A dump appends 7-bit text (44_text_dump.md R220, R221). -/
  | dumped (i : Instr) (p : Text) : i ∈ dumpOps → Ascii p →
      ExecEffect s i (State.succeed { s with txt := s.txt ++ p } p.length)
  /-- ETH.PARSE (41_ethernet.md R140). -/
  | ethParsed (a v : Nat) : s.bufv = true → a + 14 ≤ s.len.toNat →
      ExecEffect s (.ethParse a) (State.succeed { s with vEth := View.at a } v)
  /-- IP.INIT (42_ipv4.md R150). -/
  | templateSet (v : Nat) :
      ExecEffect s .ipInit (State.succeed { s with tmpl := Config.tmplInit, tmplv := true } v)
  /-- IP.PARSE (42_ipv4.md R152). -/
  | ipParsed (a hb cls v : Nat) : s.bufv = true → a + 20 ≤ s.len.toNat → (cls = 1 → a + hb < s.len.toNat) →
      ExecEffect s (.ipParse a) ((s.ipViews a hb cls).succeed v)
  /-- IP.SETADDR (42_ipv4.md R153). -/
  | addressesSet (a v : Nat) : a + 20 ≤ s.len.toNat →
      ExecEffect s (.ipSetaddr a) (((s.writeBytes (a + 12) (beBytes s.arg0.toNat 4)).writeBytes (a + 16)
        (beBytes s.arg1.toNat 4)).succeed v)
  /-- IP.NEXTID (42_ipv4.md R157). -/
  | idDrawn (v : Nat) : ExecEffect s .ipNextid (State.succeed { s with seq := s.seq + 1 } v)
  /-- IP.TMPLCOPY (42_ipv4.md R154). -/
  | templateCopied (a v : Nat) : a + 20 ≤ s.len.toNat →
      ExecEffect s (.ipTmplcopy a) ((s.writeBytes a s.tmpl.toList).succeed v)
  /-- ICMP.ECHOLOC (43_icmp.md R199). -/
  | echoLocated (v : Nat) : s.vIcmp.v = true →
      ExecEffect s .icmpEcholoc (State.succeed { s with vEcho := View.at (s.vIcmp.base.toNat + 4) } v)

namespace ExecEffect

variable {s t : State}

theorem of_finishValue {r : Except Reason Nat} (h : finishValue s r = .next t) (i : Instr) : ExecEffect s i t := by
  obtain ⟨v, -, rfl⟩ | ⟨e, -, rfl⟩ := finishValue_next s t r h
  · exact answered i v
  · exact failed i e

theorem of_finishText {r : Except Reason Text} {i : Instr} (h : finishText s r = .next t) (hi : i ∈ dumpOps)
    (hr : AsciiResult r) : ExecEffect s i t := by
  obtain ⟨p, hp, rfl⟩ | ⟨e, -, rfl⟩ := finishText_next s t r h
  · exact dumped i p hi (hr p hp)
  · exact failed i e

/-- An operation that ends with `finish` has the effect its success has, or fails. -/
theorem of_finish {r : Except Reason (State × Nat)} {i : Instr} (h : finish s r = .next t)
    (hr : ∀ u v, r = .ok (u, v) → ExecEffect s i (u.succeed v)) : ExecEffect s i t := by
  obtain ⟨u, v, huv, rfl⟩ | ⟨e, -, rfl⟩ := finish_next s t r h
  · exact hr u v huv
  · exact failed i e

theorem of_execEthParse (a : Nat) (h : execEthParse a s = .next t) : ExecEffect s (.ethParse a) t := by
  refine of_finish h fun u v huv => ?_
  simp only [bind_eq_ok, requireBuf, require_eq_ok, available_eq, Config.ethHdrLen, Except.ok.injEq, Prod.mk.injEq] at huv
  obtain ⟨-, hbuf, -, hlen, rfl, -⟩ := huv
  exact ethParsed a v hbuf (by omega)

theorem of_execIpInit (h : execIpInit s = .next t) : ExecEffect s .ipInit t := by
  unfold execIpInit at h
  split at h
  · cases h
  · refine of_finish h fun u v huv => ?_
    cases huv
    exact templateSet 0

theorem of_execIpNextid (h : execIpNextid s = .next t) : ExecEffect s .ipNextid t := by
  refine of_finish h fun u v huv => ?_
  cases huv
  exact idDrawn _

theorem of_execIpParse (a : Nat) (h : execIpParse a s = .next t) : ExecEffect s (.ipParse a) t := by
  refine of_finish h fun u v huv => ?_
  simp only [bind_eq_ok, requireBuf, require_eq_ok, available_eq, Config.ipMinHdr, Except.ok.injEq, Prod.mk.injEq] at huv
  obtain ⟨-, hbuf, -, hlen, -, -, -, -, hb, -, p, -, -, hpay, rfl, -⟩ := huv
  exact ipParsed a hb (protoClass p) v hbuf (by omega) (by omega)

theorem of_execIpSetaddr (a : Nat) (h : execIpSetaddr a s = .next t) : ExecEffect s (.ipSetaddr a) t := by
  refine of_finish h fun u v huv => ?_
  simp only [bind_eq_ok, require_eq_ok, memWrite_eq_ok, Except.ok.injEq, Prod.mk.injEq] at huv
  obtain ⟨-, -, -, hlen, s1, ⟨-, rfl⟩, s2, ⟨-, rfl⟩, rfl, -⟩ := huv
  exact addressesSet a v hlen

theorem of_execIpTmplcopy (a : Nat) (h : execIpTmplcopy a s = .next t) : ExecEffect s (.ipTmplcopy a) t := by
  refine of_finish h fun u v huv => ?_
  simp only [bind_eq_ok, require_eq_ok, Except.ok.injEq, Prod.mk.injEq] at huv
  obtain ⟨-, -, -, -, -, hlen, rfl, -⟩ := huv
  exact templateCopied a v hlen

theorem of_execIcmpEcholoc (h : execIcmpEcholoc s = .next t) : ExecEffect s .icmpEcholoc t := by
  refine of_finish h fun u v huv => ?_
  simp only [bind_eq_ok, requireView_eq_ok, Except.ok.injEq, Prod.mk.injEq] at huv
  obtain ⟨b, ⟨hv, rfl⟩, -, -, -, -, rfl, -⟩ := huv
  exact echoLocated v hv

theorem of_execEthDumps (h : execEthDumps s = .next t) : ExecEffect s .ethDumps t :=
  of_finishText h (by decide) (.bind fun _ => .bind fun _ => .bind fun _ => .ok (ascii_line
    (ascii_append (ascii_append (ascii_append (by decide) (ascii_mac _)) (by decide)) (ascii_mac _))))

theorem of_execEthDumpd (h : execEthDumpd s = .next t) : ExecEffect s .ethDumpd t :=
  of_finishText h (by decide) (.bind fun _ => .bind fun _ => .bind fun _ => .bind fun _ => .ok (ascii_append
    (ascii_append (ascii_line (ascii_append (ascii_asciiText _) (ascii_mac _)))
      (ascii_line (ascii_append (ascii_asciiText _) (ascii_mac _))))
    (ascii_line (ascii_append (ascii_append (ascii_asciiText _) (ascii_dec _))
      (ascii_inParens (ascii_prefixedHex4 _))))))

/-- The inversion lemma of `exec`: every next state of every operation is one of the effects. -/
theorem of_exec {i : Instr} (h : exec i s = .next t) : ExecEffect s i t := by
  cases i with
  | ethParse a => exact of_execEthParse a h
  | ipInit => exact of_execIpInit h
  | ipParse a => exact of_execIpParse a h
  | ipSetaddr a => exact of_execIpSetaddr a h
  | ipNextid => exact of_execIpNextid h
  | ipTmplcopy a => exact of_execIpTmplcopy a h
  | icmpEcholoc => exact of_execIcmpEcholoc h
  | ethDumps => exact of_execEthDumps h
  | ethDumpd => exact of_execEthDumpd h
  | ipDumpPrec =>
    exact of_finishText h (by decide) (.bind fun b => .textIpAll s b (.textIpTosPrec s b))
  | ipDumpDscp =>
    exact of_finishText h (by decide) (.bind fun b => .textIpAll s b (.textIpTosDscp s b))
  | ipDumpver => exact of_finishText h (by decide) (.bind (.textIpVer s))
  | ipDumphl => exact of_finishText h (by decide) (.bind (.textIpHl s))
  | ipDumptosPrec => exact of_finishText h (by decide) (.bind (.textIpTosPrec s))
  | ipDumptosDscp => exact of_finishText h (by decide) (.bind (.textIpTosDscp s))
  | ipDumpff => exact of_finishText h (by decide) (.bind (.textIpFf s))
  | ipDumpproto => exact of_finishText h (by decide) (.bind (.textIpProto s))
  | ipDumpaddr => exact of_finishText h (by decide) (.bind (.textIpAddr s))
  | icmpDumps =>
    exact of_finishText h (by decide) (.bind fun m => .bind fun t =>
      .ite (.textIcmpEchoSummary s m t) (.textIcmpCodeSummary s m t))
  | icmpDumpd =>
    exact of_finishText h (by decide) (.bind fun ipb => .bind fun m => .bind fun t => .bind fun cs =>
      .ite (.textIcmpEchoDetail s ipb m t cs) (.textIcmpCodeDetail s m t cs))
  | n2h16 | h2n16 | n2h32 | h2n32 => exact of_finishValue (r := .ok _) h _
  | ethGetDst | ethGetSrc | ethGetTyperaw | ethGetType | ipIsv4 | ipIsv6 | ipPayoff
  | ipPaysz | ipGetVer | ipGetIhl | ipGetTos | ipGetPrec | ipGetDscp | ipGetTotlen | ipGetId | ipGetFlagsfrag | ipGetFlags
  | ipGetFrag | ipGetTtl | ipGetProto | ipGetCsum | ipGetSrc | ipGetDst | icmpGetType | icmpGetCode | icmpGetCsum
  | icmpTypelbl | icmpCodelbl | icmpIsecho | icmpClass | icmpGetid | icmpGetseq => exact of_finishValue h _

end ExecEffect

/-! ## Bytes at or beyond LEN -/

/-- Bytes written inside the buffer leave what lies at or beyond `n`. -/
theorem State.readByte_writeBytes_beyond (s : State) (a n x : Nat) (bs : List Byte) (h : a + bs.length ≤ n) (hx : n ≤ x) :
    (s.writeBytes a bs).readByte x = s.readByte x := by
  rw [State.readByte_writeBytes, dif_neg (by omega)]

/-! ## What the host's actions answer -/

/-- BUF_SIZE fits the 16 bits of LEN (00_scope.md R6). -/
theorem bufSize_lt : Config.bufSize < 65536 := by
  have := Config.bufSizePred.isLt
  unfold Config.bufSize
  omega

/-- LEN holds every length within BUF_SIZE (10_state.md R28, R40). -/
theorem len_toNat_of_le_bufSize {n : Nat} (h : n ≤ Config.bufSize) : (BitVec.ofNat 16 n).toNat = n := by
  rw [BitVec.toNat_ofNat, Nat.mod_eq_of_lt (Nat.lt_of_le_of_lt h bufSize_lt)]

theorem hostLoad_fits {bytes : List Byte} (s : State) (h : bytes.length ≤ Config.bufSize) :
    hostLoad bytes s = .next (State.dropViews
      { s with
        buf := Memory.ofBytes 0 bytes
        bufEpoch := s.bufEpoch + 1
        len := BitVec.ofNat 16 bytes.length
        bufv := true }) :=
  if_pos h

theorem hostLoad_tooLong {bytes : List Byte} (s : State) (h : ¬ bytes.length ≤ Config.bufSize) :
    hostLoad bytes s = .refused .loadTooLong :=
  if_neg h

theorem hostReaches_eq_true (s : State) (k : Nat) : hostReaches s k = true ↔ s.bufv = true ∧ k < s.len.toNat := by
  simp [hostReaches]

theorem hostReaches_ne_true (s : State) (k : Nat) : ¬ hostReaches s k = true ↔ s.bufv = false ∨ s.len.toNat ≤ k := by
  rw [hostReaches_eq_true, not_and_or, Bool.not_eq_true, not_lt]

section

variable {s : State} {k : Nat} {b : Byte}

theorem hostWrite_available (h : hostReaches s k = true) : hostWrite k b s = .next (s.writeByte k b) :=
  if_pos h

theorem hostWrite_notAvailable (h : ¬ hostReaches s k = true) : hostWrite k b s = .refused .writeNotAvailable :=
  if_neg h

theorem hostRead_available (h : hostReaches s k = true) :
    hostRead k s = .next { s with seen := s.seen ++ [.byte (s.readByte k)] } :=
  if_pos h

theorem hostRead_notAvailable (h : ¬ hostReaches s k = true) : hostRead k s = .refused .readNotAvailable :=
  if_neg h

end

theorem hostCmd_legal {w : BitVec 32} {i : Instr} (s : State) (h : decode w = .ok i) : hostCmd w s = exec i s := by
  rw [hostCmd, h]

theorem hostCmd_illegal {w : BitVec 32} {e : DecodeError} (s : State) (h : decode w = .error e) :
    hostCmd w s = .next (s.fail .illegalOp) := by
  rw [hostCmd, h]

/-! ## The invariant -/

theorem failStatus_mem (r : Reason) :
    failStatus r ∈ [0x00#8, 0x03#8, 0x05#8, 0x07#8, 0x09#8, 0x0B#8, 0x0D#8, 0x0F#8, 0x11#8, 0x13#8] := by
  cases r <;> decide

theorem State.Inv.reset : State.reset.Inv where
  bufWf := List.Pairwise.nil
  bufListed a := by simp [State.reset, Memory.lookup]
  lenBound := Nat.zero_le _
  lenNoBuf _ := rfl
  ethView h := Bool.noConfusion h
  ipView h := Bool.noConfusion h
  icmpView h := Bool.noConfusion h
  echoView h := Bool.noConfusion h
  statusLegal := by decide
  tmplFixed h := Bool.noConfusion h
  txtAscii := ascii_nil

namespace State.Inv

variable {s : State}

theorem succeed (h : s.Inv) (v : Nat) : (s.succeed v).Inv :=
  { h with statusLegal := List.mem_cons_self }

theorem fail (h : s.Inv) (r : Reason) : (s.fail r).Inv :=
  { h with statusLegal := failStatus_mem r }

theorem appendText (h : s.Inv) {p : Text} (hp : Ascii p) : State.Inv { s with txt := s.txt ++ p } :=
  { h with txtAscii := ascii_append h.txtAscii hp }

theorem dropText (h : s.Inv) (k : Nat) (os : List Observation) :
    State.Inv { s with seen := os, txt := s.txt.drop k } :=
  { h with txtAscii := fun b hb => h.txtAscii b (List.mem_of_mem_drop hb) }

/-- A base less than one ICMP header past the buffer fits the 17 bits of a view (10_state.md R35; log entry 15). -/
theorem at_base_toNat_of_lt {b : Nat} (h : b < s.len.toNat + 4) : (View.at b).base.toNat = b :=
  View.at_base_toNat b (by have := s.len.isLt; omega)

theorem ethParsed (h : s.Inv) {a : Nat} (hbuf : s.bufv = true) (hlen : a + 14 ≤ s.len.toNat) :
    State.Inv { s with vEth := View.at a } :=
  { h with ethView := fun _ => ⟨hbuf, by rwa [at_base_toNat_of_lt (s := s) (by omega)]⟩ }

theorem idDrawn (h : s.Inv) (q : BitVec 16) : State.Inv { s with seq := q } := { h with }

theorem templateSet (h : s.Inv) : State.Inv { s with tmpl := Config.tmplInit, tmplv := true } :=
  { h with tmplFixed := fun _ => rfl }

theorem ipParsed (h : s.Inv) {a hb cls : Nat} (hbuf : s.bufv = true) (hlen : a + 20 ≤ s.len.toNat)
    (hpay : cls = 1 → a + hb < s.len.toNat) : (s.ipViews a hb cls).Inv :=
  { h with
    ipView := fun _ => ⟨hbuf, by
      rw [State.ipViews_vIp, at_base_toNat_of_lt (s := s) (by omega)]
      exact hlen⟩
    icmpView := by
      rw [State.ipViews_vIcmp]
      split
      · rename_i hcls
        intro _
        refine ⟨hbuf, ?_⟩
        rw [at_base_toNat_of_lt (Nat.lt_add_right 4 (hpay hcls))]
        exact hpay hcls
      · intro hv
        cases hv
    echoView := fun hv => Bool.noConfusion hv }

/-- Bytes written below LEN (20_memory.md R65) list no new offset. -/
theorem writeBytes (h : s.Inv) {a : Nat} {bs : List Byte} (hlen : a + bs.length ≤ s.len.toNat) :
    (s.writeBytes a bs).Inv where
  bufWf := State.writeBytes_wf s a bs h.bufWf
  bufListed x := by
    rw [State.writeBytes_lookup_isSome, State.writeBytes_len, Bool.or_eq_true, decide_eq_true_eq, h.bufListed]
    omega
  lenBound := by simpa using h.lenBound
  lenNoBuf := by simpa using h.lenNoBuf
  ethView := by simpa using h.ethView
  ipView := by simpa using h.ipView
  icmpView := by simpa using h.icmpView
  echoView := by simpa using h.echoView
  statusLegal := by rw [State.writeBytes_status]; exact h.statusLegal
  tmplFixed := by simpa using h.tmplFixed
  txtAscii := by rw [State.writeBytes_txt]; exact h.txtAscii

theorem echoLocated (h : s.Inv) (hv : s.vIcmp.v = true) :
    State.Inv { s with vEcho := View.at (s.vIcmp.base.toNat + 4) } := by
  obtain ⟨hbuf, hlt⟩ := h.icmpView hv
  exact { h with echoView := fun _ => ⟨hbuf, hv, at_base_toNat_of_lt (s := s) (by omega)⟩ }

/-- Every operation keeps the invariant. -/
theorem of_exec (h : s.Inv) {i : Instr} {t : State} (he : exec i s = .next t) : t.Inv := by
  cases ExecEffect.of_exec he with
  | failed _ r => exact h.fail r
  | answered _ v => exact h.succeed v
  | dumped _ p _ hp => exact (h.appendText hp).succeed _
  | ethParsed a v hbuf hlen => exact (h.ethParsed hbuf hlen).succeed v
  | templateSet v => exact h.templateSet.succeed v
  | ipParsed a hb cls v hbuf hlen hpay => exact (h.ipParsed hbuf hlen hpay).succeed v
  | addressesSet a v hlen =>
    have h1 := h.writeBytes (a := a + 12) (bs := beBytes s.arg0.toNat 4) (by rw [beBytes_length]; omega)
    exact (h1.writeBytes (by rw [beBytes_length, State.writeBytes_len]; omega)).succeed v
  | idDrawn v => exact (h.idDrawn (s.seq + 1)).succeed v
  | templateCopied a v hlen => exact (h.writeBytes (by simpa using hlen)).succeed v
  | echoLocated v hv => exact (h.echoLocated hv).succeed v

/-! ### The host's actions -/

/-- With all views dropped the invariant is that of BUF, LEN and the registers no view concerns. -/
theorem of_dropViews (h : s.Inv) {m : Memory} {n : BitVec 16} {bv : Bool} (e : Nat) (hwf : Memory.wf m)
    (hlisted : ∀ a, (Memory.lookup m a).isSome = true ↔ a < n.toNat) (hbound : n.toNat ≤ Config.bufSize)
    (hno : bv = false → n = 0) :
    (State.dropViews { s with buf := m, bufEpoch := e, len := n, bufv := bv }).Inv where
  bufWf := hwf
  bufListed := hlisted
  lenBound := hbound
  lenNoBuf := hno
  ethView hv := Bool.noConfusion hv
  ipView hv := Bool.noConfusion hv
  icmpView hv := Bool.noConfusion hv
  echoView hv := Bool.noConfusion hv
  statusLegal := h.statusLegal
  tmplFixed := h.tmplFixed
  txtAscii := h.txtAscii

theorem of_hostLoad {bytes : List Byte} {t : State} (h : s.Inv) (ht : hostLoad bytes s = .next t) : t.Inv := by
  by_cases hfits : bytes.length ≤ Config.bufSize
  · rw [hostLoad_fits s hfits] at ht
    cases ht
    have hlen := len_toNat_of_le_bufSize hfits
    refine h.of_dropViews _ (Memory.ofBytes_wf bytes 0) (fun a => ?_) (hlen.le.trans hfits) (fun hv => Bool.noConfusion hv)
    rw [Memory.lookup_ofBytes, if_pos (Nat.zero_le a), Nat.sub_zero, hlen]
    simp
  · rw [hostLoad_tooLong s hfits] at ht
    cases ht

theorem of_hostRelease {t : State} (h : s.Inv) (ht : hostRelease s = .next t) : t.Inv := by
  cases ht
  exact h.of_dropViews _ List.Pairwise.nil (fun a => by simp [Memory.lookup]) (Nat.zero_le _) (fun _ => rfl)

theorem of_hostWrite {k : Nat} {b : Byte} {t : State} (h : s.Inv) (ht : hostWrite k b s = .next t) : t.Inv := by
  by_cases hr : hostReaches s k = true
  · rw [hostWrite_available hr] at ht
    cases ht
    obtain ⟨-, hk⟩ := (hostReaches_eq_true s k).mp hr
    exact h.writeBytes (bs := [b]) hk
  · rw [hostWrite_notAvailable hr] at ht
    cases ht

theorem of_hostRead {k : Nat} {t : State} (h : s.Inv) (ht : hostRead k s = .next t) : t.Inv := by
  by_cases hr : hostReaches s k = true
  · rw [hostRead_available hr] at ht
    cases ht
    exact { h with }
  · rw [hostRead_notAvailable hr] at ht
    cases ht

theorem of_hostSetArg {k : Fin 2} {w : BitVec 32} {t : State} (h : s.Inv) (ht : hostSetArg k w s = .next t) : t.Inv := by
  cases ht
  split
  · exact { h with }
  · exact { h with }

theorem of_hostCmd {w : BitVec 32} {t : State} (h : s.Inv) (ht : hostCmd w s = .next t) : t.Inv := by
  cases hd : decode w with
  | ok i =>
    rw [hostCmd_legal s hd] at ht
    exact h.of_exec ht
  | error e =>
    rw [hostCmd_illegal s hd] at ht
    cases ht
    exact h.fail .illegalOp

/-- Every event keeps the invariant. -/
theorem of_perform {e : HostEvent} {t : State} (h : s.Inv) (ht : perform e s = .next t) : t.Inv := by
  cases e with
  | load bytes => exact h.of_hostLoad ht
  | release => exact h.of_hostRelease ht
  | write k b => exact h.of_hostWrite ht
  | read k => exact h.of_hostRead ht
  | setArg k w => exact h.of_hostSetArg ht
  | cmd w => exact h.of_hostCmd ht
  | readRes =>
    cases ht
    exact { h with }
  | readTxt k =>
    cases ht
    exact h.dropText k _
  | reset =>
    cases ht
    exact { State.Inv.reset with }

/-- The host's queue is no part of the invariant. -/
theorem pending (h : s.Inv) (es : List HostEvent) : State.Inv { s with pending := es } := { h with }

/-- Every step keeps the invariant: an idle step keeps the state, any other performs the next event. -/
theorem of_step {t : State} (h : s.Inv) (ht : step s = .next t) : t.Inv := by
  cases hq : s.pending with
  | nil =>
    rw [step_idle s hq] at ht
    cases ht
    exact h
  | cons e es =>
    rw [step_event s e es hq] at ht
    exact (h.pending es).of_perform ht

end State.Inv

/-! ## An absent view or buffer -/

/-- STATUS after InvalidRef is 0x11 and nothing else has changed, in each of the three endings (60_exceptions.md R262, R263). -/
theorem finish_invalidRef (s : State) {r : Except Reason (State × Nat)} (h : r = .error .invalidRef) :
    finish s r = .next { s with status := 0x11#8 } := by
  rw [h]
  rfl

theorem finishValue_invalidRef (s : State) {r : Except Reason Nat} (h : r = .error .invalidRef) :
    finishValue s r = .next { s with status := 0x11#8 } := by
  rw [h]
  rfl

theorem finishText_invalidRef (s : State) {r : Except Reason Text} (h : r = .error .invalidRef) :
    finishText s r = .next { s with status := 0x11#8 } := by
  rw [h]
  rfl

/-- What raises at its first part raises. -/
theorem bind_error {α β : Type} {x : Except Reason α} {e : Reason} (h : x = .error e) (f : α → Except Reason β) :
    (x >>= f) = .error e := by
  rw [h]
  rfl

section

variable {s : State} {i : Instr}

theorem requireView_bind_absent {α : Type} {w : View} (h : w.v = false) (f : Nat → Except Reason α) :
    (requireView w >>= f) = .error .invalidRef :=
  bind_error (requireView_invalid w h) f

theorem requireBuf_bind_absent {α : Type} (h : s.bufv = false) (f : Unit → Except Reason α) :
    (requireBuf s >>= f) = .error .invalidRef :=
  bind_error (requireBuf_absent s h) f

theorem ipField_absent (h : s.vIp.v = false) (k n : Nat) : ipField s k n = .error .invalidRef :=
  requireView_bind_absent h _

theorem icmpField_absent (h : s.vIcmp.v = false) (k n : Nat) : icmpField s k n = .error .invalidRef :=
  requireView_bind_absent h _

theorem exec_ethView_absent (h : s.vEth.v = false) (hi : i ∈ ethViewOps) : exec i s = .next { s with status := 0x11#8 } := by
  cases i with
  | ethGetDst | ethGetSrc | ethGetTyperaw | ethGetType => exact finishValue_invalidRef s (requireView_bind_absent h _)
  | ethDumps | ethDumpd => exact finishText_invalidRef s (requireView_bind_absent h _)
  | _ => simp [ethViewOps] at hi

theorem exec_ipView_absent (h : s.vIp.v = false) (hi : i ∈ ipViewOps) : exec i s = .next { s with status := 0x11#8 } := by
  cases i with
  | ipPayoff | ipPaysz => exact finishValue_invalidRef s (requireView_bind_absent h _)
  | ipGetTos | ipGetTotlen | ipGetId | ipGetFlagsfrag | ipGetTtl | ipGetProto | ipGetCsum | ipGetSrc | ipGetDst =>
    exact finishValue_invalidRef s (ipField_absent h _ _)
  | ipGetVer | ipGetIhl | ipGetPrec | ipGetDscp | ipGetFlags | ipGetFrag =>
    exact finishValue_invalidRef s (bind_error (ipField_absent h _ _) _)
  | ipDumpPrec | ipDumpDscp | ipDumpver | ipDumphl | ipDumptosPrec | ipDumptosDscp | ipDumpff | ipDumpproto | ipDumpaddr
  | icmpDumpd => exact finishText_invalidRef s (requireView_bind_absent h _)
  | _ => simp [ipViewOps] at hi

theorem exec_icmpView_absent (h : s.vIcmp.v = false) (hi : i ∈ icmpViewOps) :
    exec i s = .next { s with status := 0x11#8 } := by
  cases i with
  | icmpGetType | icmpGetCode | icmpGetCsum => exact finishValue_invalidRef s (icmpField_absent h _ _)
  | icmpTypelbl | icmpCodelbl | icmpIsecho | icmpClass =>
    exact finishValue_invalidRef s (bind_error (icmpField_absent h _ _) _)
  | icmpEcholoc => exact finish_invalidRef s (requireView_bind_absent h _)
  | icmpDumps => exact finishText_invalidRef s (requireView_bind_absent h _)
  | icmpDumpd =>
    -- V_IP is tested first; with or without it the answer is InvalidRef (44_text_dump.md R236).
    by_cases hip : s.vIp.v = true
    · refine finishText_invalidRef s ?_
      rw [(requireView_eq_ok s.vIp _).mpr ⟨hip, rfl⟩]
      exact requireView_bind_absent h _
    · exact exec_ipView_absent (Bool.eq_false_of_not_eq_true hip) (by decide)
  | _ => simp [icmpViewOps] at hi

theorem exec_echoView_absent (h : s.vEcho.v = false) (hi : i ∈ echoViewOps) :
    exec i s = .next { s with status := 0x11#8 } := by
  cases i with
  | icmpGetid | icmpGetseq => exact finishValue_invalidRef s (requireView_bind_absent h _)
  | _ => simp [echoViewOps] at hi

theorem exec_rawRef_absent {a : Nat} (h : s.bufv = false) (hi : i ∈ rawRefOps a) :
    exec i s = .next { s with status := 0x11#8 } := by
  cases i with
  | ethParse | ipParse | ipSetaddr => exact finish_invalidRef s (requireBuf_bind_absent h _)
  | ipIsv4 | ipIsv6 => exact finishValue_invalidRef s (requireBuf_bind_absent h _)
  | ipTmplcopy =>
    -- The template is tested first, with the same reason (42_ipv4.md R154).
    refine finish_invalidRef s ?_
    by_cases ht : s.tmplv = true
    · rw [(require_eq_ok (s.tmplv = true) _ ()).mpr ht]
      exact requireBuf_bind_absent h _
    · exact bind_error ((require_eq_error (s.tmplv = true) _ _).mpr ⟨ht, rfl⟩) _
  | _ => simp [rawRefOps] at hi

end

theorem decodeTableWord_eq_some (nbits w : Nat) (i : Instr) :
    decodeTableWord nbits w = some i ↔ decode (commandWord nbits w) = .ok i := by
  unfold decodeTableWord
  split <;> simp_all

/-- What a loaded buffer reads as, at the offsets of its bytes. -/
theorem State.readByte_of_buf_ofBytes {s : State} {bytes : List Byte} (h : s.buf = Memory.ofBytes 0 bytes) {k : Nat}
    (hk : k < bytes.length) : s.readByte k = bytes[k] := by
  have hl : Memory.lookup s.buf k = some bytes[k] := by
    rw [h, Memory.lookup_ofBytes, if_pos (Nat.zero_le k), Nat.sub_zero, List.getElem?_eq_getElem hk]
  rw [State.readByte, hl]

end Sys2Proof.Machine

/-! ## The statements settled -/

namespace Sys2Proof.StateFamily
open Sys2Proof.Machine

/-- Settles O53: one case per effect of an operation; the two stores end below LEN. -/
theorem whoWritesWhat : Obligations.WhoWritesWhat := by
  unfold Obligations.WhoWritesWhat
  intro i s t h
  cases ExecEffect.of_exec h with
  | failed | answered | ethParsed | templateSet | ipParsed | idDrawn | echoLocated => simp [State.readByte]
  | dumped _ p hi => simp [hi, State.readByte]
  | addressesSet a v hlen =>
    have beyond : ∀ x, s.len.toNat ≤ x →
        ((s.writeBytes (a + 12) (beBytes s.arg0.toNat 4)).writeBytes (a + 16) (beBytes s.arg1.toNat 4)).readByte x
          = s.readByte x := by
      intro x hx
      rw [State.readByte_writeBytes_beyond _ _ _ _ _ (by rw [beBytes_length]; omega) hx,
        State.readByte_writeBytes_beyond _ _ _ _ _ (by rw [beBytes_length]; omega) hx]
    simpa using beyond
  | templateCopied a v hlen =>
    have beyond : ∀ x, s.len.toNat ≤ x → (s.writeBytes a s.tmpl.toList).readByte x = s.readByte x :=
      fun x hx => State.readByte_writeBytes_beyond _ _ _ _ _ (by simpa using hlen) hx
    simpa using beyond

/-- Settles O55. -/
theorem stepKeepsInvariant : Obligations.StepKeepsInvariant :=
  fun _ _ => State.Inv.of_step

/-- Settles O56: the invariant holds at reset, every step keeps it (O55), and R36 is part of it. -/
theorem reachableViews : Obligations.ReachableViews := by
  unfold Obligations.ReachableViews
  intro events k t hrun
  have hinv : t.Inv := run_keeps State.Inv (fun _ _ => State.Inv.of_step) k _ t (State.Inv.reset.pending events) hrun
  refine ⟨hinv.ethView, hinv.ipView, hinv.icmpView, fun hv => ?_⟩
  obtain ⟨hbuf, -, hbase⟩ := hinv.echoView hv
  exact ⟨hbuf, hbase⟩

/-- Settles O12, one case per view. -/
theorem absentViewFails : Obligations.AbsentViewFails := by
  unfold Obligations.AbsentViewFails
  rintro s i (⟨hv, hi⟩ | ⟨hv, hi⟩ | ⟨hv, hi⟩ | ⟨hv, hi⟩)
  · exact exec_ethView_absent hv hi
  · exact exec_ipView_absent hv hi
  · exact exec_icmpView_absent hv hi
  · exact exec_echoView_absent hv hi

/-- Settles O13. -/
theorem absentBufferFails : Obligations.AbsentBufferFails :=
  fun _ _ _ hbuf hi => exec_rawRef_absent hbuf hi

/-- Settles O5. -/
theorem stepRunsCommand : Obligations.StepRunsCommand := by
  unfold Obligations.StepRunsCommand
  refine ⟨fun s w rest i hq hd _ => ?_, fun s nbits w i hd => ?_⟩
  · rw [step_event s _ _ hq]
    exact hostCmd_legal _ hd
  · rw [step_event (s.withFetchWord nbits w) _ s.pending rfl]
    exact hostCmd_legal s ((decodeTableWord_eq_some nbits w i).mp hd)

/-- Settles O45. -/
theorem hostLoadRelease : Obligations.HostLoadRelease := by
  unfold Obligations.HostLoadRelease
  refine fun s rest => ⟨fun bytes hq hfits => ?_, fun hq => ?_⟩
  · rw [step_event s _ _ hq]
    exact ⟨_, hostLoad_fits _ hfits, fun _ hk => State.readByte_of_buf_ofBytes rfl hk, len_toNat_of_le_bufSize hfits,
      rfl, rfl, rfl, rfl, rfl, rfl⟩
  · rw [step_event s _ _ hq]
    exact ⟨_, rfl, rfl, rfl, rfl, rfl, rfl, rfl, rfl⟩

/-- Settles O46. -/
theorem hostWrite : Obligations.HostWrite := by
  unfold Obligations.HostWrite
  refine fun s k v rest hq => ⟨fun hbuf hk => ?_, fun hno => ?_⟩
  · rw [step_event s _ _ hq]
    refine ⟨_, hostWrite_available ((hostReaches_eq_true _ k).mpr ⟨hbuf, hk⟩), ?_, fun x hx => ?_, rfl⟩
    · rw [State.readByte_writeByte, if_pos rfl]
    · rw [State.readByte_writeByte, if_neg hx]
      rfl
  · rw [step_event s _ _ hq]
    exact hostWrite_notAvailable ((hostReaches_ne_true _ k).mpr hno)

/-- Settles O47. -/
theorem hostRead : Obligations.HostRead := by
  unfold Obligations.HostRead
  refine fun s k rest hq => ⟨fun hbuf hk => ?_, fun hno => ?_⟩
  · rw [step_event s _ _ hq]
    exact hostRead_available ((hostReaches_eq_true _ k).mpr ⟨hbuf, hk⟩)
  · rw [step_event s _ _ hq]
    exact hostRead_notAvailable ((hostReaches_ne_true _ k).mpr hno)

/-- Settles O48. -/
theorem hostSetArg : Obligations.HostSetArg :=
  fun s _ _ => ⟨fun hq => step_event s _ _ hq, fun hq => step_event s _ _ hq⟩

/-- Settles O49: TXT splits at the `k` bytes read. -/
theorem hostReads : Obligations.HostReads := by
  unfold Obligations.HostReads
  refine fun s k rest => ⟨fun hq => step_event s _ _ hq, fun hq => ?_⟩
  exact ⟨s.txt.take k, s.txt.drop k, (List.take_append_drop k s.txt).symm, List.length_take, step_event s _ _ hq⟩

/-- Settles O51. -/
theorem resetValues : Obligations.ResetValues :=
  ⟨rfl, rfl, rfl, rfl, rfl, rfl, rfl, rfl, rfl, rfl, rfl, rfl, rfl⟩

/-- Settles O54. -/
theorem invariantAtReset : Obligations.InvariantAtReset := State.Inv.reset

end Sys2Proof.StateFamily

/-! # The encoding family: decoder and encoder, legal and illegal words

The proofs of O1 to O4. The decoder answers an instruction exactly when the word's fields are the instruction's
(`decodeFields_eq_ok`), so one equivalence, `decode_eq_ok`, gives both directions of the round trip. The illegal words are
taken format by format: what the decoder answers in a format against what R108 says of it. -/

namespace Sys2Proof

/-! ## The fields of an instruction -/

/-- OP and M of every row fit their eight bits (30_encoding.md R100, R106, R107). -/
theorem Instr.fields_op_m_lt (i : Instr) : i.fields.op < 256 ∧ i.fields.m < 256 := by
  cases i <;> simp [Instr.fields]

/-- The field A is the raw reference, 0 where the operation has none (30_encoding.md R100). -/
theorem Instr.fields_a (i : Instr) : i.fields.a = i.rawRef.getD 0 := by
  cases i <;> rfl

theorem wellFormed_iff (i : Instr) : wellFormed i = true ↔ i.fields.a < 2 ^ 16 := by
  rw [Instr.fields_a, wellFormed]
  cases i.rawRef with
  | none => simp
  | some a => simp [Nat.le_iff_lt_add_one]

/-- OP, M and A are read back from the word of a well-formed instruction (30_encoding.md R110). -/
theorem fields_encode {i : Instr} (h : wellFormed i = true) :
    (⟨(encode i).toNat / 2 ^ 24, (encode i).toNat / 2 ^ 16 % 256, (encode i).toNat % 2 ^ 16⟩ : CommandFields)
      = i.fields := by
  obtain ⟨hop, hm⟩ := i.fields_op_m_lt
  obtain ⟨eop, em, ea⟩ := Laws.encode_fields i hop hm ((wellFormed_iff i).mp h)
  rw [eop, em, ea]

/-- A word is put together again from its three fields (30_encoding.md R100). -/
theorem ofNat_fields (w : BitVec 32) :
    BitVec.ofNat 32 (w.toNat / 2 ^ 24 * 2 ^ 24 + w.toNat / 2 ^ 16 % 256 * 2 ^ 16 + w.toNat % 2 ^ 16) = w := by
  have hw : w.toNat / 2 ^ 24 * 2 ^ 24 + w.toNat / 2 ^ 16 % 256 * 2 ^ 16 + w.toNat % 2 ^ 16 = w.toNat := by omega
  rw [hw, BitVec.ofNat_toNat, BitVec.setWidth_eq]

/-! ## The decoder answers what the encoder's table says -/

theorem decodeFields_fields (i : Instr) : decodeFields i.fields.op i.fields.m i.fields.a = .ok i := by
  cases i <;> rfl

/-- The decoder's table and the encoder's are one table, read in the two directions (30_encoding.md R106, R107). -/
theorem decodeFields_eq_ok (op m a : Nat) (i : Instr) : decodeFields op m a = .ok i ↔ i.fields = ⟨op, m, a⟩ := by
  constructor
  · intro h
    obtain ⟨j, hd, hj⟩ | ⟨f, hd, hf⟩ | ⟨row, hd, hrow⟩ | hd := decodeFields_cases op m a
    · obtain ⟨rfl, rfl, rfl⟩ := (decodeN_eq_ok m a i j).mp (hd.symm.trans h)
      exact hj
    · obtain ⟨rfl, rfl⟩ := (decodeA_eq_ok m a i f).mp (hd.symm.trans h)
      exact hf a
    · obtain ⟨rfl, hi⟩ := (decodeS_eq_ok m a i row).mp (hd.symm.trans h)
      obtain ⟨hm, rfl⟩ := List.getElem?_eq_some_iff.mp hi
      exact hrow m hm
    · rw [hd] at h
      cases h
  · intro h
    simpa only [h] using decodeFields_fields i

/-- Decoding inverts encoding, in both directions (30_encoding.md R110). -/
theorem decode_eq_ok (w : BitVec 32) (i : Instr) : decode w = .ok i ↔ wellFormed i = true ∧ encode i = w := by
  rw [decode, decodeFields_eq_ok]
  constructor
  · intro h
    refine ⟨(wellFormed_iff i).mpr ?_, ?_⟩
    · rw [h]
      exact Nat.mod_lt _ (Nat.two_pow_pos 16)
    · rw [encode, h]
      exact ofNat_fields w
  · rintro ⟨hwf, rfl⟩
    exact (fields_encode hwf).symm

end Sys2Proof

namespace Sys2Proof.Machine

/-! ## The formats of the operation codes

For each format, the row the decoder reads and what R108 says of the word. -/

theorem decodeFields_formatN {op : Nat} (h : op ∈ formatNOps) (m a : Nat) :
    ∃ j, decodeFields op m a = decodeN m a j := by
  unfold formatNOps at h
  fin_cases h
  all_goals exact ⟨_, rfl⟩

theorem decodeFields_formatA {op : Nat} (h : op ∈ formatAOps) (m a : Nat) :
    ∃ f, decodeFields op m a = decodeA m a f := by
  unfold formatAOps at h
  fin_cases h
  all_goals exact ⟨_, rfl⟩

theorem decodeFields_formatS {op n : Nat} (h : (op, n) ∈ formatSOps) (m a : Nat) :
    ∃ row : List Instr, decodeFields op m a = decodeS m a row ∧ row.length = n := by
  simp only [formatSOps, List.mem_cons, List.not_mem_nil, or_false, Prod.mk.injEq] at h
  rcases h with ⟨rfl, rfl⟩ | ⟨rfl, rfl⟩ | ⟨rfl, rfl⟩ | ⟨rfl, rfl⟩ | ⟨rfl, rfl⟩
  all_goals exact ⟨_, rfl, rfl⟩

theorem decodeFields_reservedOp {op : Nat} (hN : op ∉ formatNOps) (hA : op ∉ formatAOps)
    (hS : op ∉ formatSOps.map Prod.fst) (m a : Nat) : decodeFields op m a = .error .reservedOp := by
  simp only [formatNOps, formatAOps, formatSOps, List.map_cons, List.map_nil, List.mem_cons, List.not_mem_nil, or_false,
    not_or] at hN hA hS
  simp only [decodeFields, hN, hA, hS, if_false]

/-- No operation code has two formats (30_encoding.md R106). -/
theorem formatNOps_disjoint : ∀ op ∈ formatNOps, op ∉ formatAOps ∧ op ∉ formatSOps.map Prod.fst := by decide

theorem formatAOps_disjoint : ∀ op ∈ formatAOps, op ∉ formatNOps ∧ op ∉ formatSOps.map Prod.fst := by decide

/-- An operation code of format S has one number of selectors (30_encoding.md R107). -/
theorem formatSOps_injective : ∀ p ∈ formatSOps, ∀ q ∈ formatSOps, p.1 = q.1 → p.2 = q.2 := by decide

/-- Case (d) of R108 is about format S alone. -/
theorem no_selectors_of_not_formatS {op : Nat} (hS : op ∉ formatSOps.map Prod.fst) (m : Nat) :
    ¬ ∃ p ∈ formatSOps, p.1 = op ∧ p.2 ≤ m :=
  fun ⟨p, hp, he, _⟩ => hS (List.mem_map.mpr ⟨p, hp, he⟩)

theorem illegalFields_formatN {op : Nat} (h : op ∈ formatNOps) (m a : Nat) :
    illegalFields op m a ↔ a ≠ 0 ∨ m ≠ 0 := by
  obtain ⟨-, hS⟩ := formatNOps_disjoint op h
  simp [illegalFields, h, no_selectors_of_not_formatS hS m]

theorem illegalFields_formatA {op : Nat} (h : op ∈ formatAOps) (m a : Nat) : illegalFields op m a ↔ m ≠ 0 := by
  obtain ⟨hN, hS⟩ := formatAOps_disjoint op h
  simp [illegalFields, h, hN, hS, no_selectors_of_not_formatS hS m]

theorem illegalFields_formatS {op n : Nat} (h : (op, n) ∈ formatSOps) (m a : Nat) :
    illegalFields op m a ↔ a ≠ 0 ∨ n ≤ m := by
  have hS : op ∈ formatSOps.map Prod.fst := List.mem_map.mpr ⟨_, h, rfl⟩
  have hN : op ∉ formatNOps := fun hN => (formatNOps_disjoint op hN).2 hS
  have hA : op ∉ formatAOps := fun hA => (formatAOps_disjoint op hA).2 hS
  have row : (∃ p ∈ formatSOps, p.1 = op ∧ p.2 ≤ m) ↔ n ≤ m :=
    ⟨fun ⟨p, hp, he, hle⟩ => (formatSOps_injective p hp _ h he).ge.trans hle, fun hle => ⟨_, h, rfl, hle⟩⟩
  simp [illegalFields, hN, hA, hS, row]

/-- The decoder refuses exactly the words of the four cases of R108. -/
theorem illegalFields_iff (op m a : Nat) : illegalFields op m a ↔ ∃ e, decodeFields op m a = .error e := by
  by_cases hN : op ∈ formatNOps
  · obtain ⟨j, hd⟩ := decodeFields_formatN hN m a
    rw [hd, decodeN_error, illegalFields_formatN hN]
  by_cases hA : op ∈ formatAOps
  · obtain ⟨f, hd⟩ := decodeFields_formatA hA m a
    rw [hd, decodeA_error, illegalFields_formatA hA]
  by_cases hS : op ∈ formatSOps.map Prod.fst
  · obtain ⟨⟨_, n⟩, hp, rfl⟩ := List.mem_map.mp hS
    obtain ⟨row, hd, rfl⟩ := decodeFields_formatS hp m a
    rw [hd, decodeS_error, illegalFields_formatS hp]
  · exact ⟨fun _ => ⟨_, decodeFields_reservedOp hN hA hS m a⟩, fun _ => .inl ⟨hN, hA, hS⟩⟩

theorem illegalWord_iff (w : BitVec 32) : illegalWord w ↔ ∃ e, decode w = .error e :=
  illegalFields_iff _ _ _

end Sys2Proof.Machine

/-! ## The statements settled -/

namespace Sys2Proof.EncodingFamily
open Sys2Proof.Machine

/-- Settles O1. -/
theorem decodeEncode : Obligations.DecodeEncode :=
  fun i hwf => (decode_eq_ok (encode i) i).mpr ⟨hwf, rfl⟩

/-- Settles O2. -/
theorem decodedWordIsEncoding : Obligations.DecodedWordIsEncoding :=
  fun w i => (decode_eq_ok w i).mp

/-- Settles O3: the illegal words are those the decoder refuses, and those end in IllegalOp. -/
theorem illegalCommands : Obligations.IllegalCommands := by
  unfold Obligations.IllegalCommands
  refine fun w => ⟨fun hill s => ?_, fun hlegal => ?_⟩
  · obtain ⟨e, he⟩ := (illegalWord_iff w).mp hill
    exact hostCmd_illegal s he
  · cases hd : decode w with
    | ok i => exact ⟨i, rfl, fun s => hostCmd_legal s hd⟩
    | error e => exact absurd ((illegalWord_iff w).mpr ⟨e, hd⟩) hlegal

/-- Settles O4: each word is the encoding of its well-formed instruction. -/
theorem sampleDecodings : Obligations.SampleDecodings := by
  unfold Obligations.SampleDecodings
  simp only [decode_eq_ok]
  decide

end Sys2Proof.EncodingFamily

/-! # The byte-order family: the converters

The proofs of O6 to O9. Conversion is the identity or a byte reversal, so it undoes itself in either host order; a host-order
load is the conversion of the number the bytes make most significant first, and O9 is the same involution as O8. -/

namespace Sys2Proof.Machine

/-! ## The conversions as arithmetic, and their involution (40_byteorder.md R130, R132, R134 (a)) -/

theorem arg0Low16_toNat (s : State) : (arg0Low16 s).toNat = s.arg0.toNat % 65536 := by
  simp [arg0Low16]

/-- Concatenation puts the left bits above the right ones (00_scope.md R7). -/
theorem toNat_append_byte {n : Nat} (x : BitVec n) (y : Byte) : (x ++ y).toNat = x.toNat * 256 + y.toNat := by
  rw [BitVec.toNat_append, ← Nat.shiftLeft_add_eq_or_of_lt y.isLt, Nat.shiftLeft_eq]

theorem bswap32_toNat (x : BitVec 32) :
    (bswap32 x).toNat = x.toNat % 256 * 2 ^ 24 + x.toNat / 256 % 256 * 2 ^ 16 + x.toNat / 2 ^ 16 % 256 * 256
      + x.toNat / 2 ^ 24 := by
  have := x.isLt
  simp only [bswap32, toNat_append_byte, BitVec.extractLsb'_toNat, Nat.shiftRight_eq_div_pow, Nat.reducePow, Nat.div_one]
  omega

theorem bswap16_bswap16 (x : BitVec 16) : bswap16 (bswap16 x) = x := by
  have := x.isLt
  apply BitVec.eq_of_toNat_eq
  rw [bswap16_toNat, bswap16_toNat]
  omega

/-- Bit `i % 8` of byte `i / 8` comes from the byte as far from the other end. -/
theorem bswap32_getLsbD (x : BitVec 32) {i : Nat} (h : i < 32) :
    (bswap32 x).getLsbD i = x.getLsbD (8 * (3 - i / 8) + i % 8) := by
  simp only [bswap32, BitVec.getLsbD_append, BitVec.getLsbD_extractLsb']
  grind

theorem bswap32_bswap32 (x : BitVec 32) : bswap32 (bswap32 x) = x := by
  apply BitVec.eq_of_getLsbD_eq
  intro i hi
  rw [bswap32_getLsbD _ hi, bswap32_getLsbD _ (by omega)]
  congr 1
  omega

@[simp] theorem convert16_convert16 (o : HostOrder) (x : BitVec 16) : convert16 o (convert16 o x) = x := by
  cases o with
  | le => exact bswap16_bswap16 x
  | be => rfl

@[simp] theorem convert32_convert32 (o : HostOrder) (x : BitVec 32) : convert32 o (convert32 o x) = x := by
  cases o with
  | le => exact bswap32_bswap32 x
  | be => rfl

/-- A host-order load is the conversion of the two bytes with the lower offset most significant (20_memory.md R62). -/
theorem hostLoad16_eq_convert16 (o : HostOrder) (x y : Byte) : hostLoad16 o x y = (convert16 o (x ++ y)).toNat := by
  have hx := x.isLt
  have hy := y.isLt
  cases o with
  | le =>
    rw [hostLoad16, convert16, bswap16_toNat, toNat_append_byte]
    omega
  | be => exact (toNat_append_byte x y).symm

theorem convert16_arg0_toNat (o : HostOrder) (s : State) :
    (convert16 o (arg0Low16 s)).toNat
      = if o = .le then s.arg0.toNat % 256 * 256 + s.arg0.toNat / 256 % 256 else s.arg0.toNat % 65536 := by
  cases o with
  | le =>
    rw [convert16, bswap16_toNat, arg0Low16_toNat, if_pos rfl]
    omega
  | be => exact arg0Low16_toNat s

theorem convert32_toNat (o : HostOrder) (x : BitVec 32) :
    (convert32 o x).toNat
      = if o = .le then
          x.toNat % 256 * 2 ^ 24 + x.toNat / 256 % 256 * 2 ^ 16 + x.toNat / 2 ^ 16 % 256 * 256 + x.toNat / 2 ^ 24
        else x.toNat := by
  cases o with
  | le => exact bswap32_toNat x
  | be => rfl

/-! ## The converting operations (40_byteorder.md R130 to R133) -/

/-- The operation always completes with ARG0[15:0] converted. -/
def Converts16 (i : Instr) : Prop :=
  ∀ s : State, exec i s = .next (s.succeed (convert16 Config.hostOrder (arg0Low16 s)).toNat)

/-- The operation always completes with ARG0 converted. -/
def Converts32 (i : Instr) : Prop :=
  ∀ s : State, exec i s = .next (s.succeed (convert32 Config.hostOrder s.arg0).toNat)

theorem converts16_n2h16 : Converts16 .n2h16 := fun _ => rfl
theorem converts16_h2n16 : Converts16 .h2n16 := fun _ => rfl
theorem converts32_n2h32 : Converts32 .n2h32 := fun _ => rfl
theorem converts32_h2n32 : Converts32 .h2n32 := fun _ => rfl

/-- A result of 16 bits, put into ARG0, stands in ARG0[15:0]. -/
theorem arg0Low16_of_res {t : State} {x : BitVec 16} (h : t.res = BitVec.ofNat 64 x.toNat) :
    arg0Low16 { t with arg0 := t.res.setWidth 32 } = x := by
  have := x.isLt
  apply BitVec.eq_of_toNat_eq
  rw [arg0Low16_toNat, h, BitVec.toNat_setWidth, BitVec.toNat_ofNat]
  omega

theorem arg0_of_res {t : State} {x : BitVec 32} (h : t.res = BitVec.ofNat 64 x.toNat) : t.res.setWidth 32 = x := by
  have := x.isLt
  apply BitVec.eq_of_toNat_eq
  rw [h, BitVec.toNat_setWidth, BitVec.toNat_ofNat]
  omega

namespace Converts16

variable {i j : Instr}

/-- The operation answers `x` when ARG0 gets a result that is `x` converted (40_byteorder.md R134 (a)). -/
theorem exec_of_res (hi : Converts16 i) {t : State} {x : BitVec 16}
    (h : t.res = BitVec.ofNat 64 (convert16 Config.hostOrder x).toNat) :
    exec i { t with arg0 := t.res.setWidth 32 }
      = .next (State.succeed { t with arg0 := t.res.setWidth 32 } x.toNat) := by
  rw [hi, arg0Low16_of_res h, convert16_convert16]

theorem undo (hi : Converts16 i) (hj : Converts16 j) (s : State) :
    ∃ t u, exec i s = .next t ∧ exec j { t with arg0 := t.res.setWidth 32 } = .next u
      ∧ u.res.toNat = s.arg0.toNat % 65536 := by
  refine ⟨_, _, hi s, hj.exec_of_res rfl, ?_⟩
  rw [State.succeed_res, BitVec.toNat_ofNat, arg0Low16_toNat]
  omega

end Converts16

theorem Converts32.undo {i j : Instr} (hi : Converts32 i) (hj : Converts32 j) (s : State) :
    ∃ t u, exec i s = .next t ∧ exec j { t with arg0 := t.res.setWidth 32 } = .next u
      ∧ u.res.toNat = s.arg0.toNat := by
  refine ⟨_, _, hi s, hj _, ?_⟩
  have := s.arg0.isLt
  rw [State.succeed_res, arg0_of_res rfl, convert32_convert32, BitVec.toNat_ofNat]
  omega

/-! ## The ethertype of an established view (41_ethernet.md R143, R144) -/

section

variable {s : State} {b : Nat}

theorem exec_ethGetTyperaw (hv : s.vEth.v = true) (hb : s.vEth.base.toNat = b) (h : b + 14 ≤ s.len.toNat) :
    exec .ethGetTyperaw s
      = .next (s.succeed (hostLoad16 Config.hostOrder (s.readByte (b + 12)) (s.readByte (b + 13)))) := by
  have load : (requireView s.vEth >>= fun c => memReadHost16 s (c + 12))
      = .ok (hostLoad16 Config.hostOrder (s.readByte (b + 12)) (s.readByte (b + 13))) :=
    (bind_eq_ok _ _ _).mpr ⟨b, (requireView_eq_ok _ _).mpr ⟨hv, hb⟩, (memReadHost16_eq_ok _ _ _).mpr ⟨h, rfl⟩⟩
  exact congrArg (finishValue s) load

theorem exec_ethGetType (hv : s.vEth.v = true) (hb : s.vEth.base.toNat = b) (h : b + 14 ≤ s.len.toNat) :
    exec .ethGetType s
      = .next (s.succeed ((s.readByte (b + 12)).toNat * 256 + (s.readByte (b + 13)).toNat)) := by
  have read : (requireView s.vEth >>= fun c => memRead s (c + 12) 2)
      = .ok ((s.readByte (b + 12)).toNat * 256 + (s.readByte (b + 13)).toNat) :=
    (bind_eq_ok _ _ _).mpr
      ⟨b, (requireView_eq_ok _ _).mpr ⟨hv, hb⟩, (memRead_eq_ok _ _ _ _).mpr ⟨h, State.readBE_two s (b + 12)⟩⟩
  exact congrArg (finishValue s) read

end

end Sys2Proof.Machine

/-! ## The statements settled -/

namespace Sys2Proof.ByteOrderFamily
open Sys2Proof.Machine

/-- Settles O8: one round trip per width, for either operation after the other. -/
theorem convertersInvolution : Obligations.ConvertersInvolution := by
  unfold Obligations.ConvertersInvolution
  intro s
  simp only [List.forall_mem_cons, List.not_mem_nil, false_implies, implies_true, and_true]
  exact ⟨⟨converts16_h2n16.undo converts16_n2h16 s, converts16_n2h16.undo converts16_h2n16 s⟩,
    converts32_h2n32.undo converts32_n2h32 s, converts32_n2h32.undo converts32_h2n32 s⟩

/-- Settles O9: the host-order load of the ethertype is its conversion, which N2H16 undoes. -/
theorem rawTypeConverts : Obligations.RawTypeConverts := by
  unfold Obligations.RawTypeConverts
  intro s hv hlen
  have raw := exec_ethGetTyperaw hv rfl hlen
  rw [hostLoad16_eq_convert16] at raw
  refine ⟨_, _, _, raw, converts16_n2h16.exec_of_res rfl, exec_ethGetType hv rfl hlen, ?_, rfl⟩
  rw [State.succeed_res, State.succeed_res, toNat_append_byte]

/-- Settles O6. -/
theorem convert16Result : Obligations.Convert16Result := by
  unfold Obligations.Convert16Result
  refine ⟨(decode_eq_ok _ _).mpr (by decide), (decode_eq_ok _ _).mpr (by decide), fun s v hv => ?_⟩
  rw [hv, ← convert16_arg0_toNat]
  exact ⟨converts16_n2h16 s, converts16_h2n16 s⟩

/-- Settles O7. -/
theorem convert32Result : Obligations.Convert32Result := by
  unfold Obligations.Convert32Result
  refine ⟨(decode_eq_ok _ _).mpr (by decide), (decode_eq_ok _ _).mpr (by decide), fun s v hv => ?_⟩
  rw [hv, ← convert32_toNat]
  exact ⟨converts32_n2h32 s, converts32_h2n32 s⟩

end Sys2Proof.ByteOrderFamily

/-! # The Ethernet family: parsing a frame and reading its fields

The proofs of O10 and O11. ETH.PARSE is two guards and an answer, so its outcomes are the ways through the guards; the
extractors read a field of an established view, which its 14 bytes inside the buffer make succeed. -/

namespace Sys2Proof

/-- The word OP × 2^24 + A of a format A row decodes to the row's operation on the raw reference A (30_encoding.md R102). -/
theorem decode_formatA {f : Nat → Instr} {op a : Nat} (hf : (f a).fields = ⟨op, 0, a⟩) (ha : a ≤ 65535) :
    decode (BitVec.ofNat 32 (op * 2 ^ 24 + a)) = .ok (f a) := by
  refine (decode_eq_ok _ _).mpr ⟨(wellFormed_iff _).mpr ?_, ?_⟩
  · rw [hf]
    exact Nat.lt_succ_of_le ha
  · rw [encode, hf, Nat.zero_mul, Nat.add_zero]

end Sys2Proof

namespace Sys2Proof.Machine

/-! ## Guards that hold or fail -/

section

variable {α : Type}

theorem require_bind_of_holds {c : Prop} [Decidable c] (h : c) (r : Reason) (f : Unit → Except Reason α) :
    (require c r >>= f) = f () := by
  rw [(require_eq_ok c r ()).mpr h]
  rfl

theorem require_bind_of_fails {c : Prop} [Decidable c] (h : ¬ c) (r : Reason) (f : Unit → Except Reason α) :
    (require c r >>= f) = .error r :=
  bind_error ((require_eq_error c r r).mpr ⟨h, rfl⟩) f

theorem requireBuf_bind_present {s : State} (h : s.bufv = true) (f : Unit → Except Reason α) :
    (requireBuf s >>= f) = f () :=
  require_bind_of_holds h _ f

theorem requireView_bind_present {w : View} {b : Nat} (hv : w.v = true) (hb : w.base.toNat = b)
    (f : Nat → Except Reason α) : (requireView w >>= f) = f b := by
  rw [(requireView_eq_ok w b).mpr ⟨hv, hb⟩]
  rfl

end

/-! ## The outcomes of ETH.PARSE (41_ethernet.md R140) -/

section

variable {s : State} {a : Nat}

theorem exec_ethParse_present (hbuf : s.bufv = true) :
    exec (.ethParse a) s = finish s (do
      require (14 ≤ available s a) .bufferTooShort
      .ok ({ s with vEth := View.at a }, a + 14)) :=
  congrArg (finish s) (requireBuf_bind_present hbuf _)

theorem exec_ethParse_complete (hbuf : s.bufv = true) (hlen : a + 14 ≤ s.len.toNat) :
    exec (.ethParse a) s = .next (State.succeed { s with vEth := View.at a } (a + 14)) := by
  rw [exec_ethParse_present hbuf, available_eq, require_bind_of_holds (by omega)]
  rfl

theorem exec_ethParse_short (hbuf : s.bufv = true) (hlen : s.len.toNat < a + 14) :
    exec (.ethParse a) s = .next (s.fail .bufferTooShort) := by
  rw [exec_ethParse_present hbuf, available_eq, require_bind_of_fails (by omega)]
  rfl

end

/-! ## Fields of an established view (41_ethernet.md R141 to R143) -/

section

variable {s : State} {b : Nat}

theorem ethField_ok (hv : s.vEth.v = true) (hb : s.vEth.base.toNat = b) {k n : Nat} (h : b + k + n ≤ s.len.toNat) :
    (requireView s.vEth >>= fun c => memRead s (c + k) n) = .ok (s.readBE (b + k) n) :=
  (requireView_bind_present hv hb _).trans (memRead_ok s (b + k) n h)

theorem exec_ethGetDst (hv : s.vEth.v = true) (hb : s.vEth.base.toNat = b) (h : b + 14 ≤ s.len.toNat) :
    exec .ethGetDst s = .next (s.succeed (s.readBE b 6)) :=
  congrArg (finishValue s) (ethField_ok hv hb (k := 0) (n := 6) (by omega))

theorem exec_ethGetSrc (hv : s.vEth.v = true) (hb : s.vEth.base.toNat = b) (h : b + 14 ≤ s.len.toNat) :
    exec .ethGetSrc s = .next (s.succeed (s.readBE (b + 6) 6)) :=
  congrArg (finishValue s) (ethField_ok hv hb (k := 6) (n := 6) (by omega))

end

/-- The byte at the lower offset is the upper half in the order BE alone (20_memory.md R62). -/
theorem hostLoad16_eq_ite (o : HostOrder) (x y : Byte) :
    hostLoad16 o x y = if o = .be then x.toNat * 256 + y.toNat else y.toNat * 256 + x.toNat := by
  cases o <;> rfl

end Sys2Proof.Machine

/-! ## The statements settled -/

namespace Sys2Proof.EthernetFamily
open Sys2Proof.Machine

/-- Settles O10: the word of the format A row 0x10, then one clause per way through the two guards. -/
theorem ethParse : Obligations.EthParse := by
  unfold Obligations.EthParse
  exact fun s a => ⟨decode_formatA (f := .ethParse) rfl, exec_ethParse_complete,
    fun hbuf => exec_rawRef_absent (a := a) hbuf (by simp [rawRefOps]), exec_ethParse_short⟩

/-- Settles O11: each extractor's field, with its bytes written out most significant first or in host order. -/
theorem ethExtractors : Obligations.EthExtractors := by
  unfold Obligations.EthExtractors
  intro s b hv hb hlen
  rw [← State.readBE_six, ← State.readBE_six s (b + 6), ← hostLoad16_eq_ite]
  exact ⟨exec_ethGetDst hv hb hlen, exec_ethGetSrc hv hb hlen, exec_ethGetTyperaw hv hb hlen,
    exec_ethGetType hv hb hlen⟩

end Sys2Proof.EthernetFamily

/-! # The IPv4 family: template and counter, parsing, the stores, the fields

The proofs of O14 to O23. The stores are two rules about what `writeBytes` leaves; IP.PARSE with its header inside the buffer is
two guards on the header's own bytes (`exec_ipParse_inside`), whose ways through are its outcomes; the extractors read a byte or
a 16-bit field of an established view, and take a slice of it. -/

namespace Sys2Proof.Machine

/-! ## Parts of an operation that answer -/

/-- What answers at its first part goes on with the answer. -/
theorem bind_ok {α β : Type} {x : Except Reason α} {a : α} (h : x = .ok a) (f : α → Except Reason β) :
    (x >>= f) = f a := by
  rw [h]
  rfl

theorem finish_ok {s u : State} {v : Nat} {r : Except Reason (State × Nat)} (h : r = .ok (u, v)) :
    finish s r = .next (u.succeed v) := by
  rw [h]
  rfl

theorem finish_error {s : State} {e : Reason} {r : Except Reason (State × Nat)} (h : r = .error e) :
    finish s r = .next (s.fail e) := by
  rw [h]
  rfl

theorem finishValue_ok {s : State} {v : Nat} {r : Except Reason Nat} (h : r = .ok v) :
    finishValue s r = .next (s.succeed v) := by
  rw [h]
  rfl

theorem finishValue_error {s : State} {e : Reason} {r : Except Reason Nat} (h : r = .error e) :
    finishValue s r = .next (s.fail e) := by
  rw [h]
  rfl

/-! ## The template and the counter (42_ipv4.md R150, R157) -/

theorem exec_ipInit_first {s : State} (h : s.tmplv = false) :
    exec .ipInit s = .next (State.succeed { s with tmpl := Config.tmplInit, tmplv := true } 0) :=
  if_neg (by simp [h])

theorem exec_ipInit_again {s : State} (h : s.tmplv = true) : exec .ipInit s = .fault .initTwice :=
  if_pos h

theorem exec_ipNextid (s : State) :
    exec .ipNextid s = .next (State.succeed { s with seq := s.seq + 1 } s.seq.toNat) :=
  rfl

/-- The counter counts modulo 65536 (10_state.md R33). -/
theorem seq_add_one (x : BitVec 16) : x + 1 = BitVec.ofNat 16 ((x.toNat + 1) % 65536) := by
  apply BitVec.eq_of_toNat_eq
  simp [BitVec.toNat_add]

theorem repeatExec_succ {i : Instr} {s t : State} (h : exec i s = .next t) (n : Nat) :
    repeatExec i (n + 1) s = repeatExec i n t := by
  rw [repeatExec, h]

/-- After `n + 1` calls the counter has moved by `n + 1`, and RES is what it was before the last of them. -/
theorem repeatExec_ipNextid (n : Nat) (s : State) :
    repeatExec .ipNextid (n + 1) s
      = .next (State.succeed { s with seq := BitVec.ofNat 16 ((s.seq.toNat + n + 1) % 65536) }
          ((s.seq.toNat + n) % 65536)) := by
  induction n generalizing s with
  | zero =>
    have hlast : (s.seq.toNat + 0) % 65536 = s.seq.toNat := Nat.mod_eq_of_lt s.seq.isLt
    rw [repeatExec_succ (exec_ipNextid s), seq_add_one, hlast]
    rfl
  | succ n ih =>
    have hseq : (s.seq + 1).toNat = (s.seq.toNat + 1) % 65536 := BitVec.toNat_add s.seq 1
    have hnext : ((s.seq + 1).toNat + n + 1) % 65536 = (s.seq.toNat + (n + 1) + 1) % 65536 := by omega
    have hlast : ((s.seq + 1).toNat + n) % 65536 = (s.seq.toNat + (n + 1)) % 65536 := by omega
    rw [repeatExec_succ (exec_ipNextid s), ih, State.succeed_seq, hnext, hlast]
    rfl

/-! ## Bytes written one after the other -/

section

variable (s : State) (a : Nat) {bs : List Byte}

theorem State.readByte_writeBytes_inside {k : Nat} (h : k < bs.length) :
    (s.writeBytes a bs).readByte (a + k) = bs[k] := by
  rw [State.readByte_writeBytes, dif_pos (by omega)]
  simp only [Nat.add_sub_cancel_left]

theorem State.readByte_writeBytes_outside {x : Nat} (h : x < a ∨ a + bs.length ≤ x) :
    (s.writeBytes a bs).readByte x = s.readByte x := by
  rw [State.readByte_writeBytes, dif_neg (by omega)]

/-- A 4-byte value stands in BUF most significant byte first (20_memory.md R65). -/
theorem State.readByte_writeBytes_beBytes_four (v : Nat) {k : Nat} (h : k < 4) :
    ((s.writeBytes a (beBytes v 4)).readByte (a + k)).toNat = v / 256 ^ (3 - k) % 256 := by
  have hk : k < (beBytes v 4).length := by rwa [beBytes_length]
  have hbyte : (beBytes v 4)[k] = BitVec.ofNat 8 (v / 256 ^ (3 - k)) :=
    Option.some.inj ((List.getElem?_eq_getElem hk).symm.trans (beBytes_four_getElem? v k h))
  rw [State.readByte_writeBytes_inside s a hk, hbyte, BitVec.toNat_ofNat]

end

/-- A state that differs in BUF alone differs, once the operation has ended, in BUF, RES and STATUS. -/
theorem State.succeed_frame_of_buf {s u : State} (h : u = { s with buf := u.buf }) :
    u.succeed 0 = { s with buf := (u.succeed 0).buf, res := 0, status := 0 } :=
  congrArg (State.succeed · 0) h

/-! ## The two stores (42_ipv4.md R153, R154) -/

section

variable {s : State} {a : Nat}

theorem exec_ipTmplcopy_complete (ht : s.tmplv = true) (hbuf : s.bufv = true) (hlen : a + 20 ≤ s.len.toNat) :
    exec (.ipTmplcopy a) s = .next ((s.writeBytes a s.tmpl.toList).succeed 0) := by
  refine finish_ok ?_
  rw [require_bind_of_holds ht, requireBuf_bind_present hbuf, require_bind_of_holds hlen]

theorem exec_ipTmplcopy_noTemplate (ht : s.tmplv = false) :
    exec (.ipTmplcopy a) s = .next (s.fail .invalidRef) :=
  finish_error (require_bind_of_fails (by simp [ht]) _ _)

theorem exec_ipTmplcopy_short (ht : s.tmplv = true) (hbuf : s.bufv = true) (hlen : s.len.toNat < a + 20) :
    exec (.ipTmplcopy a) s = .next (s.fail .bufferTooShort) := by
  refine finish_error ?_
  rw [require_bind_of_holds ht, requireBuf_bind_present hbuf, require_bind_of_fails (Nat.not_le.mpr hlen)]

/-- BUF with ARG0 and ARG1 in the address fields of the header at `a`. -/
def State.setAddresses (s : State) (a : Nat) : State :=
  (s.writeBytes (a + 12) (beBytes s.arg0.toNat 4)).writeBytes (a + 16) (beBytes s.arg1.toNat 4)

theorem exec_ipSetaddr_complete (hbuf : s.bufv = true) (hlen : a + 20 ≤ s.len.toNat) :
    exec (.ipSetaddr a) s = .next ((s.setAddresses a).succeed 0) := by
  have hsrc := (memWrite_eq_ok s _ (a + 12) 4 s.arg0.toNat).mpr ⟨by omega, rfl⟩
  have hdst := (memWrite_eq_ok (s.writeBytes (a + 12) (beBytes s.arg0.toNat 4)) _ (a + 16) 4 s.arg1.toNat).mpr
    ⟨by rw [State.writeBytes_len]; omega, rfl⟩
  refine finish_ok ?_
  rw [requireBuf_bind_present hbuf, require_bind_of_holds hlen, bind_ok hsrc, bind_ok hdst]
  rfl

theorem exec_ipSetaddr_short (hbuf : s.bufv = true) (hlen : s.len.toNat < a + 20) :
    exec (.ipSetaddr a) s = .next (s.fail .bufferTooShort) := by
  refine finish_error ?_
  rw [requireBuf_bind_present hbuf, require_bind_of_fails (Nat.not_le.mpr hlen)]

theorem State.readByte_setAddresses_source (s : State) (a : Nat) {k : Nat} (h : k < 4) :
    ((s.setAddresses a).readByte (a + 12 + k)).toNat = s.arg0.toNat / 256 ^ (3 - k) % 256 := by
  rw [State.setAddresses, State.readByte_writeBytes_outside _ _ (by omega),
    State.readByte_writeBytes_beBytes_four s (a + 12) _ h]

theorem State.readByte_setAddresses_destination (s : State) (a : Nat) {k : Nat} (h : k < 4) :
    ((s.setAddresses a).readByte (a + 16 + k)).toNat = s.arg1.toNat / 256 ^ (3 - k) % 256 :=
  State.readByte_writeBytes_beBytes_four _ (a + 16) _ h

theorem State.readByte_setAddresses_outside (s : State) (a : Nat) {x : Nat} (h : x < a + 12 ∨ a + 20 ≤ x) :
    (s.setAddresses a).readByte x = s.readByte x := by
  rw [State.setAddresses, State.readByte_writeBytes_outside _ _ (by rw [beBytes_length]; omega),
    State.readByte_writeBytes_outside _ _ (by rw [beBytes_length]; omega)]

theorem State.setAddresses_eq (s : State) (a : Nat) : s.setAddresses a = { s with buf := (s.setAddresses a).buf } := by
  simp only [State.setAddresses]
  rw [State.writeBytes_eq _ (a + 16), State.writeBytes_eq s]

end

/-! ## IP.PARSE (42_ipv4.md R152) -/

section

variable {s : State} {a : Nat}

theorem exec_ipParse_short (hbuf : s.bufv = true) (hlen : s.len.toNat < a + 20) :
    exec (.ipParse a) s = .next (s.fail .bufferTooShort) := by
  refine finish_error ?_
  rw [requireBuf_bind_present hbuf, available_eq]
  exact require_bind_of_fails (c := 20 ≤ s.len.toNat - a) (by omega) _ _

/-- With the header inside the buffer two guards remain: the version, and where the payload begins. -/
theorem exec_ipParse_inside (hbuf : s.bufv = true) (hlen : a + 20 ≤ s.len.toNat) :
    exec (.ipParse a) s = finish s (do
      require ((s.readByte a).toNat / 16 = 4) .versionMismatch
      require (protoClass (s.readByte (a + 9)).toNat = 0 ∨ 4 * ((s.readByte a).toNat % 16) < s.len.toNat - a)
        .bufferTooShort
      .ok (s.ipViews a (4 * ((s.readByte a).toNat % 16)) (protoClass (s.readByte (a + 9)).toNat),
        protoClass (s.readByte (a + 9)).toNat)) := by
  refine congrArg (finish s) ?_
  rw [requireBuf_bind_present hbuf, available_eq, ipVer_ok s a (by omega), ipHdrBytes_ok s a (by omega),
    ipProto_ok s a (by omega)]
  exact require_bind_of_holds (c := 20 ≤ s.len.toNat - a) (by omega) _ _

theorem exec_ipParse_complete (hbuf : s.bufv = true) (hlen : a + 20 ≤ s.len.toNat)
    (hver : (s.readByte a).toNat / 16 = 4)
    (hpay : protoClass (s.readByte (a + 9)).toNat ≠ 0 → a + 4 * ((s.readByte a).toNat % 16) < s.len.toNat) :
    exec (.ipParse a) s
      = .next (State.succeed (s.ipViews a (4 * ((s.readByte a).toNat % 16)) (protoClass (s.readByte (a + 9)).toNat))
          (protoClass (s.readByte (a + 9)).toNat)) := by
  rw [exec_ipParse_inside hbuf hlen, require_bind_of_holds hver, require_bind_of_holds (by omega)]
  rfl

theorem exec_ipParse_otherVersion (hbuf : s.bufv = true) (hlen : a + 20 ≤ s.len.toNat)
    (hver : (s.readByte a).toNat / 16 ≠ 4) : exec (.ipParse a) s = .next (s.fail .versionMismatch) := by
  rw [exec_ipParse_inside hbuf hlen, require_bind_of_fails hver]
  rfl

theorem exec_ipParse_noPayload (hbuf : s.bufv = true) (hlen : a + 20 ≤ s.len.toNat)
    (hver : (s.readByte a).toNat / 16 = 4) (hproto : protoClass (s.readByte (a + 9)).toNat ≠ 0)
    (hpay : s.len.toNat ≤ a + 4 * ((s.readByte a).toNat % 16)) :
    exec (.ipParse a) s = .next (s.fail .bufferTooShort) := by
  rw [exec_ipParse_inside hbuf hlen, require_bind_of_holds hver, require_bind_of_fails (by omega)]
  rfl

end

/-- RES after IP.PARSE, by the protocol byte (42_ipv4.md R152; 30_encoding.md R98). -/
theorem ofNat_protoClass (p : Nat) :
    BitVec.ofNat 64 (protoClass p) = if p = 0x01 then 1 else if p = 0x06 then 2 else if p = 0x17 then 3 else 0 := by
  rw [protoClass_eq]
  split_ifs <;> rfl

/-! ## The version tests (42_ipv4.md R155, R156) -/

/-- What IP.ISV4 and IP.ISV6 compute, with the version `n` they test for. -/
def versionTest (s : State) (a n : Nat) : Except Reason Nat := do
  requireBuf s
  let ver ← ipVer s a
  .ok (if ver = n then 1 else 0)

theorem exec_ipIsv4 (s : State) (a : Nat) : exec (.ipIsv4 a) s = finishValue s (versionTest s a 4) := rfl

theorem exec_ipIsv6 (s : State) (a : Nat) : exec (.ipIsv6 a) s = finishValue s (versionTest s a 6) := rfl

section

variable {s : State} {a : Nat}

theorem finishValue_versionTest (hbuf : s.bufv = true) (ha : a < s.len.toNat) (n : Nat) :
    finishValue s (versionTest s a n)
      = .next { s with res := if (s.readByte a).toNat / 16 = n then 1 else 0, status := 0 } := by
  have htest : versionTest s a n = .ok (if (s.readByte a).toNat / 16 = n then 1 else 0) :=
    (requireBuf_bind_present hbuf _).trans (bind_ok (ipVer_ok s a ha) _)
  rw [finishValue_ok htest]
  split <;> rfl

theorem finishValue_versionTest_short (hbuf : s.bufv = true) (ha : s.len.toNat ≤ a) (n : Nat) :
    finishValue s (versionTest s a n) = .next (s.fail .bufferTooShort) := by
  have hver : ipVer s a = .error .bufferTooShort := bind_error (memRead_short s a 1 (by omega)) _
  exact finishValue_error ((requireBuf_bind_present hbuf _).trans (bind_error hver _))

end

/-! ## The payload and the fields of an established view (42_ipv4.md R158 to R175) -/

/-- The two bytes of FLAGSFRAG split at bit 13 (30_encoding.md R94). -/
theorem slice_flags_of_bytes (x y : Byte) : slice 15 13 (x.toNat * 256 + y.toNat) = x.toNat / 32 := by
  have hx := x.isLt
  have hy := y.isLt
  rw [slice_flags _ (by omega)]
  omega

theorem slice_fragment_of_bytes (x y : Byte) :
    slice 12 0 (x.toNat * 256 + y.toNat) = x.toNat % 32 * 256 + y.toNat := by
  have hy := y.isLt
  rw [slice_fragment]
  omega

/-- An extractor that answers a slice of the field it reads. -/
theorem finishValue_slice {s : State} {r : Except Reason Nat} {hi lo x v : Nat} (hr : r = .ok x)
    (hv : slice hi lo x = v) : finishValue s (r >>= fun y => .ok (slice hi lo y)) = .next (s.succeed v) :=
  finishValue_ok ((bind_ok hr _).trans (congrArg Except.ok hv))

section

variable {s : State} {b : Nat} (hv : s.vIp.v = true) (hb : s.vIp.base.toNat = b) (hlen : b + 20 ≤ s.len.toNat)

include hv hb hlen

theorem ipField_byte (k : Nat) (hk : k < 20) : ipField s k 1 = .ok (s.readByte (b + k)).toNat := by
  rw [ipField_ok s b k 1 hv hb (by omega), State.readBE_one]

theorem ipField_two (k : Nat) (hk : k < 19) :
    ipField s k 2 = .ok ((s.readByte (b + k)).toNat * 256 + (s.readByte (b + k + 1)).toNat) := by
  rw [ipField_ok s b k 2 hv hb (by omega), State.readBE_two]

theorem ipField_four (k : Nat) (hk : k < 17) :
    ipField s k 4 = .ok ((s.readByte (b + k)).toNat * 256 ^ 3 + (s.readByte (b + k + 1)).toNat * 256 ^ 2
      + (s.readByte (b + k + 2)).toNat * 256 + (s.readByte (b + k + 3)).toNat) := by
  rw [ipField_ok s b k 4 hv hb (by omega), State.readBE_four]

theorem exec_ipPayoff : exec .ipPayoff s = .next (s.succeed (4 * ((s.readByte b).toNat % 16))) :=
  finishValue_ok ((requireView_bind_present hv hb _).trans (ipHdrBytes_ok s b (by omega)))

theorem exec_ipPaysz :
    exec .ipPaysz s = finishValue s
      (if 4 * ((s.readByte b).toNat % 16) ≤ (s.readByte (b + 2)).toNat * 256 + (s.readByte (b + 3)).toNat then
        .ok ((s.readByte (b + 2)).toNat * 256 + (s.readByte (b + 3)).toNat - 4 * ((s.readByte b).toNat % 16))
      else .error .inconsistent) :=
  congrArg (finishValue s) ((requireView_bind_present hv hb _).trans (payloadSize_eq s b (by omega)))

end

end Sys2Proof.Machine

/-! ## The statements settled -/

namespace Sys2Proof.Ipv4Family
open Sys2Proof.Machine

/-- Settles O15, by induction on the number of calls. -/
theorem nextidCounts : Obligations.NextidCounts := by
  unfold Obligations.NextidCounts
  refine ⟨(decode_eq_ok _ _).mpr (by decide), fun s => ?_, repeatExec_ipNextid⟩
  rw [← seq_add_one]
  exact exec_ipNextid s

/-- Settles O16: the template is the bytes written, and a write of bytes changes BUF alone. -/
theorem ipTmplcopy : Obligations.IpTmplcopy := by
  unfold Obligations.IpTmplcopy
  refine fun s a => ⟨decode_formatA (f := .ipTmplcopy) rfl, fun ht hbuf hlen => ?_, exec_ipTmplcopy_noTemplate,
    fun _ hbuf => exec_rawRef_absent (a := a) hbuf (by simp [rawRefOps]), exec_ipTmplcopy_short⟩
  refine ⟨_, exec_ipTmplcopy_complete ht hbuf hlen, fun k hk => ?_, fun x hx => ?_, ?_⟩
  · rw [State.readByte_succeed, State.readByte_writeBytes_inside s a (by simpa using hk), Vector.getElem_toList]
  · rw [State.readByte_succeed, State.readByte_writeBytes_outside s a (by simpa using hx)]
  · exact State.succeed_frame_of_buf (State.writeBytes_eq s a _)

/-- Settles O17: the successful end of IP.PARSE, with the protocol class in terms of the protocol byte. -/
theorem ipParseCompletes : Obligations.IpParseCompletes := by
  unfold Obligations.IpParseCompletes
  rintro s a _ _ hbuf hlen hver rfl rfl hpay
  refine ⟨_, exec_ipParse_complete hbuf hlen hver fun hne => hpay ((protoClass_ne_zero _).mp hne), rfl, fun hp => ?_,
    fun hp => ?_, rfl, ofNat_protoClass _, rfl⟩
  · rw [State.succeed_vIcmp, State.ipViews_vIcmp, if_pos ((protoClass_eq_one _).mpr hp)]
    rfl
  · rw [State.succeed_vIcmp, State.ipViews_vIcmp, if_neg (mt (protoClass_eq_one _).mp hp)]
    rfl

/-- Settles O18: one clause per guard of IP.PARSE that fails. -/
theorem ipParseFails : Obligations.IpParseFails := by
  unfold Obligations.IpParseFails
  exact fun s a => ⟨fun hbuf => exec_rawRef_absent (a := a) hbuf (by simp [rawRefOps]), exec_ipParse_short,
    exec_ipParse_otherVersion, fun hbuf hlen hver hp hpay =>
      exec_ipParse_noPayload hbuf hlen hver ((protoClass_ne_zero _).mpr hp) hpay⟩

/-- Settles O20: each address field holds its argument, and the two writes change BUF alone. -/
theorem ipSetaddr : Obligations.IpSetaddr := by
  unfold Obligations.IpSetaddr
  refine fun s a => ⟨decode_formatA (f := .ipSetaddr) rfl, fun hbuf hlen => ?_,
    fun hbuf => exec_rawRef_absent (a := a) hbuf (by simp [rawRefOps]), exec_ipSetaddr_short⟩
  refine ⟨_, exec_ipSetaddr_complete hbuf hlen, fun k hk => ?_, fun x hx => ?_,
    State.succeed_frame_of_buf (State.setAddresses_eq s a)⟩
  · simp only [State.readByte_succeed]
    exact ⟨State.readByte_setAddresses_source s a hk, State.readByte_setAddresses_destination s a hk⟩
  · rw [State.readByte_succeed, State.readByte_setAddresses_outside s a hx]

/-- Settles O23: one field of two or four bytes per extractor, FLAGS and FRAG a slice of theirs. -/
theorem ipWideExtractors : Obligations.IpWideExtractors := by
  unfold Obligations.IpWideExtractors
  intro s b hv hb hlen
  have two := ipField_two hv hb hlen
  have four := ipField_four hv hb hlen
  exact ⟨finishValue_ok (two 2 (by decide)), finishValue_ok (two 4 (by decide)), finishValue_ok (two 6 (by decide)),
    finishValue_slice (two 6 (by decide)) (slice_flags_of_bytes _ _),
    finishValue_slice (two 6 (by decide)) (slice_fragment_of_bytes _ _), finishValue_ok (two 10 (by decide)),
    finishValue_ok (four 12 (by decide)), finishValue_ok (four 16 (by decide))⟩

/-- Settles O14. -/
theorem ipInit : Obligations.IpInit :=
  fun _ => ⟨exec_ipInit_first, exec_ipInit_again⟩

/-- Settles O19: both operations are the one version test. -/
theorem versionTests : Obligations.VersionTests := by
  unfold Obligations.VersionTests
  intro s a
  rw [exec_ipIsv4, exec_ipIsv6]
  exact ⟨fun ha => ⟨decode_formatA (f := .ipIsv4) rfl ha, decode_formatA (f := .ipIsv6) rfl ha⟩,
    fun hbuf ha => ⟨finishValue_versionTest hbuf ha 4, finishValue_versionTest hbuf ha 6⟩,
    fun hbuf => ⟨finishValue_invalidRef s (requireBuf_bind_absent hbuf _),
      finishValue_invalidRef s (requireBuf_bind_absent hbuf _)⟩,
    fun hbuf ha => ⟨finishValue_versionTest_short hbuf ha 4, finishValue_versionTest_short hbuf ha 6⟩⟩

/-- Settles O21: the declared size is compared with the header's bytes (R159). -/
theorem ipPayload : Obligations.IpPayload := by
  unfold Obligations.IpPayload
  refine ⟨(decode_eq_ok _ _).mpr (by decide), (decode_eq_ok _ _).mpr (by decide), fun s b _ _ =>
    ⟨fun hv => ⟨exec_ipView_absent hv (by decide), exec_ipView_absent hv (by decide)⟩, ?_⟩⟩
  rintro hv hb hlen rfl rfl
  rw [exec_ipPaysz hv hb hlen]
  exact ⟨exec_ipPayoff hv hb hlen, fun hle => finishValue_ok (if_pos hle),
    fun hlt => finishValue_error (if_neg (Nat.not_le.mpr hlt))⟩

/-- Settles O22: one byte per extractor, or a slice of it. -/
theorem ipByteExtractors : Obligations.IpByteExtractors := by
  unfold Obligations.IpByteExtractors
  intro s b hv hb hlen
  have byte := ipField_byte hv hb hlen
  exact ⟨finishValue_slice (byte 0 (by decide)) (slice_version _ (s.readByte b).isLt),
    finishValue_slice (byte 0 (by decide)) (slice_headerLength _), finishValue_ok (byte 1 (by decide)),
    finishValue_slice (byte 1 (by decide)) (slice_precedence _ (s.readByte (b + 1)).isLt),
    finishValue_slice (byte 1 (by decide)) (slice_dscp _ (s.readByte (b + 1)).isLt),
    finishValue_ok (byte 8 (by decide)), finishValue_ok (byte 9 (by decide))⟩

end Sys2Proof.Ipv4Family

/-! # The ICMP family: fields, labels, classes and the echo sub-header

The proofs of O24 to O30, O34 and O59. Every operation on a message reads its type byte, which an established view keeps inside
the buffer; what it does next depends on `isEcho`, `icmpClass` or `codeTable` of that byte. The code tables are described once, by
where a code lies in its table, and that serves ICMP.CODELBL and the labels of the dumps alike. -/

namespace Sys2Proof.Machine

/-! ## The code tables and the labels (43_icmp.md R193, R195, R196; 44_text_dump.md R234) -/

section

variable {t c : Nat}

theorem codeTable_unreach (h : c ≤ 15) : codeTable 3 c = .ok .unreach :=
  if_neg (Nat.not_lt.mpr h)

theorem codeTable_redir (h : c ≤ Config.redirCodeMax.val) : codeTable 5 c = .ok .redir :=
  if_neg (Nat.not_lt.mpr h)

theorem codeTable_timex (h : c ≤ Config.timexCodeMax.val) : codeTable 11 c = .ok .timex :=
  if_neg (Nat.not_lt.mpr h)

/-- A code beyond the table of its type has no entry, and a type other than 3, 5 and 11 has no table. -/
theorem codeTable_outside (h3 : t = 3 → 15 < c) (h5 : t = 5 → Config.redirCodeMax.val < c)
    (h11 : t = 11 → Config.timexCodeMax.val < c) : codeTable t c = .error .unknownCode := by
  rw [codeTable_eq]
  split
  next ht => exact if_pos (h3 ht)
  next =>
    split
    next ht => exact if_pos (h5 ht)
    next =>
      split
      next ht => exact if_pos (h11 ht)
      next => rfl

theorem codeLabelOrUnknown_of_table {tbl : CodeTable} (h : codeTable t c = .ok tbl) :
    codeLabelOrUnknown t c = codeLabelRom tbl c := by
  rw [codeLabelOrUnknown, h]

theorem codeLabelOrUnknown_of_error {e : Reason} (h : codeTable t c = .error e) :
    codeLabelOrUnknown t c = unknownText := by
  rw [codeLabelOrUnknown, h]

theorem typeLabelOrUnknown_gap (h : t ∈ [1, 2, 4, 6, 7, 9, 10]) : typeLabelOrUnknown t = unknownText := by
  fin_cases h
  all_goals rfl

theorem typeLabelOrUnknown_above (h : 11 < t) : typeLabelOrUnknown t = unknownText := by
  have hnone : typeLabelRom[t]? = none := List.getElem?_eq_none h
  rw [typeLabelOrUnknown, hnone]

/-- The classes are 0 to 4 (43_icmp.md R197). -/
theorem icmpClass_le_four (t : Nat) : icmpClass t ≤ 4 := by
  rw [icmpClass_eq]
  split_ifs
  all_goals decide

/-- RES after ICMP.ISECHO, by the type byte (43_icmp.md R194). -/
theorem ofNat_isEcho (t : Nat) : BitVec.ofNat 64 (if isEcho t then 1 else 0) = if t = 8 ∨ t = 0 then 1 else 0 := by
  simp only [isEcho_eq_true]
  split
  · rfl
  · rfl

end

/-! ## The fields of a message (43_icmp.md R190 to R192) -/

section

variable {s : State} {m : Nat} (hv : s.vIcmp.v = true) (hb : s.vIcmp.base.toNat = m)

include hv hb

theorem icmpField_type (h : m < s.len.toNat) : icmpField s 0 1 = .ok (s.readByte m).toNat :=
  (icmpField_ok s m 0 1 hv hb h).trans (congrArg _ (State.readBE_one s m))

theorem icmpField_code (h : m + 2 ≤ s.len.toNat) : icmpField s 1 1 = .ok (s.readByte (m + 1)).toNat :=
  (icmpField_ok s m 1 1 hv hb h).trans (congrArg _ (State.readBE_one s (m + 1)))

theorem icmpField_code_short (h : s.len.toNat < m + 2) : icmpField s 1 1 = .error .bufferTooShort :=
  icmpField_short s m 1 1 hv hb h

theorem icmpField_csum (h : m + 4 ≤ s.len.toNat) :
    icmpField s 2 2 = .ok ((s.readByte (m + 2)).toNat * 256 + (s.readByte (m + 3)).toNat) :=
  (icmpField_ok s m 2 2 hv hb h).trans (congrArg _ (State.readBE_two s (m + 2)))

end

/-! ## Operations that begin with the type byte (43_icmp.md R193 to R199) -/

section

variable {s : State} {m t : Nat} (hv : s.vIcmp.v = true) (hb : s.vIcmp.base.toNat = m) (hlen : m < s.len.toNat)
  (ht : t = (s.readByte m).toNat)

include hv hb hlen ht

/-- An operation that reads the type byte first goes on with it. -/
theorem icmpField_type_bind {α : Type} (f : Nat → Except Reason α) : (icmpField s 0 1 >>= f) = f t := by
  rw [ht]
  exact bind_ok (icmpField_type hv hb hlen) f

theorem exec_icmpTypelbl_inside :
    exec .icmpTypelbl s = finishValue s (do
      require (t ≤ 11) .unknownType
      .ok t) :=
  congrArg (finishValue s) (icmpField_type_bind hv hb hlen ht _)

theorem exec_icmpIsecho : exec .icmpIsecho s = .next (s.succeed (if isEcho t then 1 else 0)) :=
  finishValue_ok (icmpField_type_bind hv hb hlen ht _)

theorem exec_icmpCodelbl_inside :
    exec .icmpCodelbl s = finishValue s (do
      require (isEcho t = false) .notApplicable
      let c ← icmpField s 1 1
      let tbl ← codeTable t c
      .ok (codeTableNumber tbl * 256 + c)) :=
  congrArg (finishValue s) (icmpField_type_bind hv hb hlen ht _)

/-- The test for an echo message comes before the code byte is read (43_icmp.md R195). -/
theorem exec_icmpCodelbl_echo (he : isEcho t = true) : exec .icmpCodelbl s = .next (s.fail .notApplicable) := by
  rw [exec_icmpCodelbl_inside hv hb hlen ht]
  exact finishValue_error (require_bind_of_fails (by simp [he]) _ _)

theorem exec_icmpCodelbl_short (he : isEcho t = false) (hshort : s.len.toNat < m + 2) :
    exec .icmpCodelbl s = .next (s.fail .bufferTooShort) := by
  rw [exec_icmpCodelbl_inside hv hb hlen ht, require_bind_of_holds he]
  exact finishValue_error (bind_error (icmpField_code_short hv hb hshort) _)

/-- With the code byte inside the buffer the code table alone decides. -/
theorem exec_icmpCodelbl_coded {c : Nat} (he : isEcho t = false) (hcode : m + 2 ≤ s.len.toNat)
    (hc : c = (s.readByte (m + 1)).toNat) :
    exec .icmpCodelbl s = finishValue s (do
      let tbl ← codeTable t c
      .ok (codeTableNumber tbl * 256 + c)) := by
  rw [exec_icmpCodelbl_inside hv hb hlen ht, require_bind_of_holds he, bind_ok (icmpField_code hv hb hcode), hc]

omit hlen in
theorem exec_icmpCodelbl_complete {c : Nat} {tbl : CodeTable} (hcode : m + 2 ≤ s.len.toNat)
    (hc : c = (s.readByte (m + 1)).toNat) (he : isEcho t = false) (htbl : codeTable t c = .ok tbl) :
    exec .icmpCodelbl s = .next (s.succeed (codeTableNumber tbl * 256 + c)) := by
  rw [exec_icmpCodelbl_coded hv hb (by omega) ht he hcode hc]
  exact finishValue_ok (bind_ok htbl _)

/-- The class decides whether the code is read. -/
theorem exec_icmpClass_inside :
    exec .icmpClass s = finishValue s (do
      let sub ← if icmpClass t = 1 ∨ icmpClass t = 2 ∨ icmpClass t = 3 then icmpField s 1 1 else .ok 0
      .ok (sub * 256 + icmpClass t)) :=
  congrArg (finishValue s) (icmpField_type_bind hv hb hlen ht _)

theorem exec_icmpClass_codeless (hcls : icmpClass t = 0 ∨ icmpClass t = 4) :
    exec .icmpClass s = .next (s.succeed (icmpClass t)) := by
  rw [exec_icmpClass_inside hv hb hlen ht, if_neg (by omega)]
  exact finishValue_ok (congrArg Except.ok (Nat.zero_add _))

theorem exec_icmpClass_coded (h0 : icmpClass t ≠ 0) (h4 : icmpClass t ≠ 4) :
    exec .icmpClass s = finishValue s (do
      let sub ← icmpField s 1 1
      .ok (sub * 256 + icmpClass t)) := by
  have := icmpClass_le_four t
  rw [exec_icmpClass_inside hv hb hlen ht, if_pos (by omega)]

theorem exec_icmpEcholoc_inside :
    exec .icmpEcholoc s = finish s (do
      require (isEcho t = true) .notEcho
      .ok ({ s with vEcho := View.at (m + 4) }, m + 4)) := by
  refine congrArg (finish s) ((requireView_bind_present hv hb _).trans ?_)
  rw [memRead_ok s m 1 hlen, State.readBE_one, ← ht]
  rfl

end

/-! ## The fields of the echo sub-header (43_icmp.md R200, R201) -/

section

variable {s : State} {e k : Nat} (hv : s.vEcho.v = true) (hb : s.vEcho.base.toNat = e)

include hv hb

theorem echoField_ok (h : e + k + 2 ≤ s.len.toNat) :
    (requireView s.vEcho >>= fun b => memRead s (b + k) 2)
      = .ok ((s.readByte (e + k)).toNat * 256 + (s.readByte (e + k + 1)).toNat) := by
  rw [requireView_bind_present hv hb, memRead_ok s (e + k) 2 h, State.readBE_two]

theorem echoField_short (h : s.len.toNat < e + k + 2) :
    (requireView s.vEcho >>= fun b => memRead s (b + k) 2) = .error .bufferTooShort := by
  rw [requireView_bind_present hv hb, memRead_short s (e + k) 2 h]

end

end Sys2Proof.Machine

/-! ## The statements settled -/

namespace Sys2Proof.IcmpFamily
open Sys2Proof.Machine

/-- Settles O27: one clause per guard of ICMP.CODELBL that fails, in the order of the guards. -/
theorem icmpCodelblFails : Obligations.IcmpCodelblFails := by
  unfold Obligations.IcmpCodelblFails
  refine fun s m t c hv hb hlen ht hc => ⟨fun he => ?_, fun h8 h0 hshort => ?_, fun h8 h0 hcode h3 h5 h11 => ?_⟩
  · exact exec_icmpCodelbl_echo hv hb hlen ht ((isEcho_eq_true t).mpr he)
  · exact exec_icmpCodelbl_short hv hb hlen ht ((isEcho_eq_false t).mpr ⟨h8, h0⟩) hshort
  · rw [exec_icmpCodelbl_coded hv hb hlen ht ((isEcho_eq_false t).mpr ⟨h8, h0⟩) hcode hc]
    exact finishValue_error (bind_error (codeTable_outside h3 h5 h11) _)

/-- Settles O28: the code is read, or found outside the buffer, for the classes 1 to 3 only. -/
theorem icmpClass : Obligations.IcmpClass := by
  unfold Obligations.IcmpClass
  intro s m t cls hv hb hlen ht hcls
  rw [← icmpClass_eq] at hcls
  subst hcls
  refine ⟨exec_icmpClass_codeless hv hb hlen ht, fun h0 h4 hcode => ?_, fun h0 h4 hshort => ?_⟩
  · rw [exec_icmpClass_coded hv hb hlen ht h0 h4]
    exact finishValue_ok (bind_ok (icmpField_code hv hb hcode) _)
  · rw [exec_icmpClass_coded hv hb hlen ht h0 h4]
    exact finishValue_error (bind_error (icmpField_code_short hv hb hshort) _)

/-- Settles O24: each extractor is one field of the message. -/
theorem icmpExtractors : Obligations.IcmpExtractors := by
  unfold Obligations.IcmpExtractors
  refine ⟨(decode_eq_ok _ _).mpr (by decide), (decode_eq_ok _ _).mpr (by decide), (decode_eq_ok _ _).mpr (by decide),
    fun s m => ⟨fun hv => ?_, fun hv hb => ?_⟩⟩
  · exact ⟨exec_icmpView_absent hv (by decide), exec_icmpView_absent hv (by decide),
      exec_icmpView_absent hv (by decide)⟩
  · exact ⟨fun h => finishValue_ok (icmpField_type hv hb h), fun h => finishValue_ok (icmpField_code hv hb h),
      fun h => finishValue_error (icmpField_code_short hv hb h), fun h => finishValue_ok (icmpField_csum hv hb h),
      fun h => finishValue_error (icmpField_short s m 2 2 hv hb h)⟩

/-- Settles O25. -/
theorem icmpTypeTests : Obligations.IcmpTypeTests := by
  unfold Obligations.IcmpTypeTests
  intro s m t hv hb hlen ht
  rw [exec_icmpTypelbl_inside hv hb hlen ht, exec_icmpIsecho hv hb hlen ht, ← ofNat_isEcho]
  exact ⟨fun hle => finishValue_ok (require_bind_of_holds hle _ _),
    fun hlt => finishValue_error (require_bind_of_fails (Nat.not_le.mpr hlt) _ _), rfl⟩

/-- Settles O26: one clause per code table. -/
theorem icmpCodelblCompletes : Obligations.IcmpCodelblCompletes := by
  unfold Obligations.IcmpCodelblCompletes
  intro s m t c hv hb hcode ht hc
  refine ⟨?_, ?_, ?_⟩
  · rintro rfl hle
    exact exec_icmpCodelbl_complete (tbl := .unreach) hv hb ht hcode hc rfl (codeTable_unreach hle)
  · rintro rfl hle
    exact exec_icmpCodelbl_complete (tbl := .redir) hv hb ht hcode hc rfl (codeTable_redir hle)
  · rintro rfl hle
    exact exec_icmpCodelbl_complete (tbl := .timex) hv hb ht hcode hc rfl (codeTable_timex hle)

/-- Settles O29. -/
theorem icmpEcholoc : Obligations.IcmpEcholoc := by
  unfold Obligations.IcmpEcholoc
  intro s m t hv hb hlen ht
  rw [exec_icmpEcholoc_inside hv hb hlen ht]
  refine ⟨fun he => ?_, fun h8 h0 => ?_⟩
  · rw [require_bind_of_holds ((isEcho_eq_true t).mpr he)]
    rfl
  · rw [require_bind_of_fails (mt (isEcho_eq_true t).mp (not_or.mpr ⟨h8, h0⟩))]
    rfl

/-- Settles O30: the identifier is the two bytes at the view's base, the sequence number the two after them. -/
theorem icmpEchoFields : Obligations.IcmpEchoFields := by
  unfold Obligations.IcmpEchoFields
  refine ⟨(decode_eq_ok _ _).mpr (by decide), (decode_eq_ok _ _).mpr (by decide),
    fun s e => ⟨fun hv => ?_, fun hv hb => ?_⟩⟩
  · exact ⟨exec_echoView_absent hv (by decide), exec_echoView_absent hv (by decide)⟩
  · exact ⟨fun h => finishValue_ok (echoField_ok (k := 0) hv hb h),
      fun h => finishValue_error (echoField_short (k := 0) hv hb h),
      fun h => finishValue_ok (echoField_ok (k := 2) hv hb h),
      fun h => finishValue_error (echoField_short (k := 2) hv hb h)⟩

/-- Settles O34: the entries of the label table, and the types with no text of their own. -/
theorem typeLabels : Obligations.TypeLabels := by
  unfold Obligations.TypeLabels
  refine ⟨rfl, rfl, rfl, rfl, rfl, ?_⟩
  rintro t (hgap | habove)
  · exact typeLabelOrUnknown_gap hgap
  · exact typeLabelOrUnknown_above habove

/-- Settles O59: the label is the entry of the code table ICMP.CODELBL would name, where there is one. -/
theorem codeLabels : Obligations.CodeLabels := by
  unfold Obligations.CodeLabels
  exact ⟨fun _ hle => codeLabelOrUnknown_of_table (codeTable_unreach hle),
    fun _ hle => codeLabelOrUnknown_of_table (codeTable_redir hle),
    fun _ hle => codeLabelOrUnknown_of_table (codeTable_timex hle),
    fun _ _ _ _ h3 h5 h11 => codeLabelOrUnknown_of_error (codeTable_outside h3 h5 h11)⟩

end Sys2Proof.IcmpFamily

/-! # The text family: numbers, the hex dump and the dump operations

The proofs of O31 to O33 and O35 to O44. A decimal number is its last digit behind the number without it (`dec_of_ge_ten`); the
hex dump of a part of a line depends on where the line stands alone (`hexdumpFrom_congr`). Each dump operation is one text
computation ended by `finishText`: what the computation answers is said once per text (`textIpVer_ok`, …), and the six parts of
IP.DUMP share one shape (`IpPart`), from which both their own outcomes and the whole dump follow. -/

namespace Sys2Proof.Machine

/-! ## Numbers (44_text_dump.md R222) -/

theorem hexDigit_toNat {d : Nat} (h : d < 16) : (hexDigit d).toNat = if d < 10 then 0x30 + d else 0x61 + (d - 10) := by
  unfold hexDigit
  split
  · exact Nat.mod_eq_of_lt (by omega)
  · exact Nat.mod_eq_of_lt (by omega)

/-- Fuel beyond what the number needs changes nothing. -/
theorem decDigits_fuel {f g v : Nat} (hf : v < f) (hg : v < g) : decDigits f v = decDigits g v := by
  induction f generalizing g v with
  | zero => omega
  | succ f ih =>
    cases g with
    | zero => omega
    | succ g =>
      rw [decDigits, decDigits]
      split
      · rfl
      · rw [ih (by omega : v / 10 < f) (by omega : v / 10 < g)]

theorem dec_of_lt_ten {v : Nat} (h : v < 10) : dec v = [decDigit v] := by
  rw [dec, decDigits, if_pos h]

theorem dec_of_ge_ten {v : Nat} (h : 10 ≤ v) : dec v = dec (v / 10) ++ [decDigit (v % 10)] := by
  rw [dec, decDigits, if_neg (Nat.not_lt.mpr h), dec,
    decDigits_fuel (by omega : v / 10 < v) (Nat.lt_succ_self (v / 10))]

/-- What holds of the one-digit texts, and of a text with a digit put behind it, holds of every decimal text. -/
theorem dec_induction {P : Nat → Text → Prop} (digit : ∀ v, v < 10 → P v [decDigit v])
    (more : ∀ v, 10 ≤ v → P (v / 10) (dec (v / 10)) → P v (dec (v / 10) ++ [decDigit (v % 10)])) (v : Nat) :
    P v (dec v) := by
  induction v using Nat.strongRecOn with
  | ind v ih =>
    by_cases h : v < 10
    · rw [dec_of_lt_ten h]
      exact digit v h
    · have hge : 10 ≤ v := Nat.not_lt.mp h
      rw [dec_of_ge_ten hge]
      exact more v hge (ih (v / 10) (by omega))

theorem decDigit_toNat {d : Nat} (h : d < 10) : (decDigit d).toNat = 0x30 + d := by
  rw [decDigit, BitVec.toNat_ofNat]
  omega

theorem dec_ne_nil (v : Nat) : dec v ≠ [] := by
  induction v using dec_induction with
  | digit v _ => exact List.cons_ne_nil _ _
  | more v _ _ => exact List.append_ne_nil_of_right_ne_nil _ (List.cons_ne_nil _ _)

theorem dec_digits (v : Nat) : ∀ b ∈ dec v, 0x30 ≤ b.toNat ∧ b.toNat ≤ 0x39 := by
  have range : ∀ d, d < 10 → 0x30 ≤ (decDigit d).toNat ∧ (decDigit d).toNat ≤ 0x39 := by
    intro d hd
    rw [decDigit_toNat hd]
    omega
  induction v using dec_induction with
  | digit v hv => simpa using range v hv
  | more v _ ih =>
    intro b hb
    rcases List.mem_append.mp hb with hb | hb
    · exact ih b hb
    · rw [List.mem_singleton.mp hb]
      exact range _ (Nat.mod_lt v (by decide))

/-- The digits' value, most significant first, is the number. -/
theorem dec_value (v : Nat) : (dec v).foldl (fun n b => n * 10 + (b.toNat - 0x30)) 0 = v := by
  induction v using dec_induction with
  | digit v hv => simp [decDigit_toNat hv]
  | more v _ ih =>
    have last := decDigit_toNat (Nat.mod_lt v (by decide : 0 < 10))
    rw [List.foldl_append, ih, List.foldl_cons, List.foldl_nil, last]
    omega

/-- The leading digit is 0 in the text of 0 alone. -/
theorem dec_head_zero (v : Nat) (h : (dec v).head? = some 0x30#8) : v = 0 := by
  induction v using dec_induction with
  | digit v hv =>
    have h0 : decDigit v = 0x30#8 := Option.some.inj h
    have hcode : 0x30 = 0x30 + v := (congrArg BitVec.toNat h0).symm.trans (decDigit_toNat hv)
    omega
  | more v hge ih =>
    rw [List.head?_append_of_ne_nil _ (dec_ne_nil _)] at h
    have := ih h
    omega

/-! ## The hex dump (44_text_dump.md R235) -/

/-- The bytes `d` dumped from two places in two dumps give one text when the line ends fall alike and both places stand alike
in a pair. -/
theorem hexdumpFrom_congr {n i n' i' : Nat} {d : List Byte} (hpair : i % 2 = i' % 2)
    (hend : ∀ k, k < d.length → (((i + k + 1) % 8 = 0 ∨ i + k + 1 = n) ↔ ((i' + k + 1) % 8 = 0 ∨ i' + k + 1 = n'))) :
    hexdumpFrom n i d = hexdumpFrom n' i' d := by
  induction d generalizing i i' with
  | nil => rfl
  | cons b bs ih =>
    have hfirst := hend 0 (Nat.zero_lt_succ _)
    have hpair' : (i + 1) % 2 = (i' + 1) % 2 := by omega
    have htail : hexdumpFrom n (i + 1) bs = hexdumpFrom n' (i' + 1) bs := by
      refine ih hpair' fun k hk => ?_
      simpa only [Nat.add_assoc, Nat.add_comm 1] using hend (k + 1) (Nat.succ_lt_succ hk)
    simp only [Nat.add_zero] at hfirst
    simp only [hexdumpFrom, hfirst, hpair', htail]

theorem hexdumpFrom_append (n i : Nat) (d e : List Byte) :
    hexdumpFrom n i (d ++ e) = hexdumpFrom n i d ++ hexdumpFrom n (i + d.length) e := by
  induction d generalizing i with
  | nil => rfl
  | cons b bs ih =>
    simp only [List.cons_append, hexdumpFrom, ih, List.length_cons, List.append_assoc, Nat.add_assoc, Nat.add_comm 1]

/-- A pair with more of its line behind it ends in a space. -/
theorem hexdump_pair (a b : Byte) {d : List Byte} (hne : d ≠ []) (hlen : d.length ≤ 6) :
    hexdump (a :: b :: d) = hex2 a.toNat ++ hex2 b.toNat ++ chars [' '] ++ hexdump d := by
  have hpos := List.length_pos_of_ne_nil hne
  have htail : hexdumpFrom (d.length + 2) 2 d = hexdump d :=
    hexdumpFrom_congr rfl fun k hk => by omega
  have hnotlast : d.length ≠ 0 := by omega
  simp [hexdump, hexdumpFrom, htail, hnotlast]

/-- A whole line ends where the dump of the rest begins. -/
theorem hexdump_line {d : List Byte} (h : d.length = 8) (rest : List Byte) :
    hexdump (d ++ rest) = hexdump d ++ hexdump rest := by
  have hline : hexdumpFrom (d ++ rest).length 0 d = hexdump d :=
    hexdumpFrom_congr rfl fun k hk => by rw [List.length_append]; omega
  have hrest : hexdumpFrom (d ++ rest).length (0 + d.length) rest = hexdump rest :=
    hexdumpFrom_congr (by omega) fun k hk => by rw [List.length_append]; omega
  rw [hexdump, hexdumpFrom_append, hline, hrest]

/-! ## How a dump ends (44_text_dump.md R220, R221) -/

theorem finishText_ok {s : State} {p : Text} {r : Except Reason Text} (h : r = .ok p) :
    finishText s r = .next { s with txt := s.txt ++ p, res := BitVec.ofNat 64 p.length, status := 0 } := by
  rw [h]
  rfl

theorem finishText_error {s : State} {e : Reason} {r : Except Reason Text} (h : r = .error e) :
    finishText s r = .next (s.fail e) := by
  rw [h]
  rfl

/-- A text computation that answers `p` makes its operation append `p`, written in any form. -/
theorem finishText_appends {s : State} {p q : Text} {r : Except Reason Text} (h : r = .ok p) (hq : p = q) :
    ∃ t, t = q ∧ finishText s r = .next { s with txt := s.txt ++ t, res := BitVec.ofNat 64 t.length, status := 0 } :=
  ⟨q, rfl, finishText_ok (hq ▸ h)⟩

/-- Every dump operation is a text computation and its end. -/
theorem exec_dumpOp {i : Instr} (hi : i ∈ dumpOps) (s : State) : ∃ r, exec i s = finishText s r := by
  cases i with
  | ethDumps | ethDumpd | ipDumpPrec | ipDumpDscp | ipDumpver | ipDumphl | ipDumptosPrec | ipDumptosDscp | ipDumpff
  | ipDumpproto | ipDumpaddr | icmpDumps | icmpDumpd => exact ⟨_, rfl⟩
  | _ => simp [dumpOps] at hi

/-! ## Forms of the rendered values (44_text_dump.md R222, R223, R226) -/

theorem inParens_prefixedHex2 (v : Nat) :
    inParens (prefixedHex2 v) = chars [' ', '(', '0', 'x'] ++ hex2 v ++ chars [')'] := rfl

theorem inParens_prefixedHex4 (v : Nat) :
    inParens (prefixedHex4 v) = chars [' ', '(', '0', 'x'] ++ hex4 v ++ chars [')'] := rfl

theorem mac_readBytes (s : State) (a : Nat) :
    mac (s.readBytes a 6) = hex2 (s.readByte a).toNat ++ chars ['-'] ++ hex2 (s.readByte (a + 1)).toNat ++ chars ['-']
      ++ hex2 (s.readByte (a + 2)).toNat ++ chars ['-'] ++ hex2 (s.readByte (a + 3)).toNat ++ chars ['-']
      ++ hex2 (s.readByte (a + 4)).toNat ++ chars ['-'] ++ hex2 (s.readByte (a + 5)).toNat := by
  simp [mac, State.readBytes, joinTexts]

theorem ipaddr_readBytes (s : State) (a : Nat) :
    ipaddr (s.readBytes a 4) = dec (s.readByte a).toNat ++ chars ['.'] ++ dec (s.readByte (a + 1)).toNat ++ chars ['.']
      ++ dec (s.readByte (a + 2)).toNat ++ chars ['.'] ++ dec (s.readByte (a + 3)).toNat := by
  simp [ipaddr, State.readBytes, joinTexts]

section

variable {s : State} {a : Nat}

theorem memRead_byte (h : a + 1 ≤ s.len.toNat) : memRead s a 1 = .ok (s.readByte a).toNat := by
  rw [memRead_ok s a 1 h, State.readBE_one]

theorem memRead_two (h : a + 2 ≤ s.len.toNat) :
    memRead s a 2 = .ok ((s.readByte a).toNat * 256 + (s.readByte (a + 1)).toNat) := by
  rw [memRead_ok s a 2 h, State.readBE_two]

end

/-! ## The Ethernet dumps (44_text_dump.md R224, R225) -/

section

variable {s : State} {b : Nat} (hv : s.vEth.v = true) (hb : s.vEth.base.toNat = b) (hlen : b + 14 ≤ s.len.toNat)

include hv hb hlen

theorem exec_ethDumps :
    exec .ethDumps s = finishText s (.ok (line (chars ['e', 't', 'h', 'e', 'r', ' '] ++ mac (s.readBytes (b + 6) 6)
      ++ chars [' ', '>', '>', ' '] ++ mac (s.readBytes b 6)))) := by
  refine congrArg (finishText s) ((requireView_bind_present hv hb _).trans ?_)
  rw [bind_ok (memReadBytes_ok s b 6 (by omega)), bind_ok (memReadBytes_ok s (b + 6) 6 (by omega))]

theorem exec_ethDumpd {et : Nat} (het : et = (s.readByte (b + 12)).toNat * 256 + (s.readByte (b + 13)).toNat) :
    exec .ethDumpd s = finishText s (.ok (line (asciiText Config.fmtEthDst ++ mac (s.readBytes b 6))
      ++ line (asciiText Config.fmtEthSrc ++ mac (s.readBytes (b + 6) 6))
      ++ line (asciiText Config.fmtEthType ++ dec et ++ inParens (prefixedHex4 et)))) := by
  refine congrArg (finishText s) ((requireView_bind_present hv hb _).trans ?_)
  rw [bind_ok (memRead_two (by omega)), bind_ok (memReadBytes_ok s b 6 (by omega)),
    bind_ok (memReadBytes_ok s (b + 6) 6 (by omega)), het]

end

/-! ## The parts of the IPv4 dump (44_text_dump.md R227 to R232) -/

section

variable {s : State} {b : Nat} (hlen : b + 20 ≤ s.len.toNat)

include hlen

theorem textIpVer_ok :
    textIpVer s b = .ok (line (asciiText Config.fmtIpVer ++ dec ((s.readByte b).toNat / 16))) :=
  bind_ok (ipVer_ok s b (by omega)) _

theorem textIpHl_ok :
    textIpHl s b = .ok (line (asciiText Config.fmtIpHl ++ dec ((s.readByte b).toNat % 16)
      ++ inParens (dec (4 * ((s.readByte b).toNat % 16)) ++ chars [' ', 'b', 'y', 't', 'e', 's']))) :=
  bind_ok (ipIhl_ok s b (by omega)) _

theorem textIpTosPrec_ok :
    textIpTosPrec s b = .ok (line (asciiText Config.fmtIpTos ++ prefixedHex2 (s.readByte (b + 1)).toNat
      ++ chars [' ', 'p', 'r', 'e', 'c', 'e', 'd', 'e', 'n', 'c', 'e', ' ']
      ++ dec ((s.readByte (b + 1)).toNat / 32))) := by
  rw [textIpTosPrec, bind_ok (memRead_byte (by omega)), slice_precedence _ (s.readByte (b + 1)).isLt]

theorem textIpTosDscp_ok :
    textIpTosDscp s b = .ok (line (asciiText Config.fmtIpTos ++ prefixedHex2 (s.readByte (b + 1)).toNat
      ++ chars [' ', 'd', 's', 'c', 'p', ' '] ++ dec ((s.readByte (b + 1)).toNat / 4))) := by
  rw [textIpTosDscp, bind_ok (memRead_byte (by omega)), slice_dscp _ (s.readByte (b + 1)).isLt]

theorem textIpFf_ok {ff : Nat} (hff : ff = (s.readByte (b + 6)).toNat * 256 + (s.readByte (b + 7)).toNat) :
    textIpFf s b = .ok (line (asciiText Config.fmtIpFlags ++ prefixedHex2 (ff / 8192))
      ++ line (asciiText Config.fmtIpFrag ++ dec (ff % 8192))) := by
  have hlt : ff < 65536 := by
    have := (s.readByte (b + 6)).isLt
    have := (s.readByte (b + 7)).isLt
    omega
  have hread : memRead s (b + 6) 2 = .ok ff := hff ▸ memRead_two (by omega)
  rw [textIpFf, bind_ok hread, slice_flags _ hlt, slice_fragment]

theorem textIpProto_ok :
    textIpProto s b = .ok (line (asciiText Config.fmtIpProto ++ protoName (s.readByte (b + 9)).toNat
      ++ inParens (prefixedHex2 (s.readByte (b + 9)).toNat))) :=
  bind_ok (ipProto_ok s b (by omega)) _

theorem textIpAddr_ok :
    textIpAddr s b = .ok (line (asciiText Config.fmtIpSrc ++ ipaddr (s.readBytes (b + 12) 4))
      ++ line (asciiText Config.fmtIpDst ++ ipaddr (s.readBytes (b + 16) 4))) := by
  rw [textIpAddr, bind_ok (memReadBytes_ok s (b + 12) 4 (by omega)), bind_ok (memReadBytes_ok s (b + 16) 4 (by omega))]

end

/-! ## One shape for the operations on the IPv4 header -/

/-- The operation `i` appends the text that `f` gives for the header V_IP points at, and `f` does not look at TXT, RES and
STATUS, which is all that a dump writes (44_text_dump.md R220). -/
structure IpPart (i : Instr) (f : State → Nat → Except Reason Text) : Prop where
  run : ∀ s, exec i s = finishText s (requireView s.vIp >>= f s)
  frame : ∀ (s : State) (w : Text) (r : BitVec 64) (st : BitVec 8) (b : Nat),
    f { s with txt := w, res := r, status := st } b = f s b

theorem ipPart_ver : IpPart .ipDumpver textIpVer := ⟨fun _ => rfl, fun _ _ _ _ _ => rfl⟩
theorem ipPart_hl : IpPart .ipDumphl textIpHl := ⟨fun _ => rfl, fun _ _ _ _ _ => rfl⟩
theorem ipPart_tosPrec : IpPart .ipDumptosPrec textIpTosPrec := ⟨fun _ => rfl, fun _ _ _ _ _ => rfl⟩
theorem ipPart_tosDscp : IpPart .ipDumptosDscp textIpTosDscp := ⟨fun _ => rfl, fun _ _ _ _ _ => rfl⟩
theorem ipPart_ff : IpPart .ipDumpff textIpFf := ⟨fun _ => rfl, fun _ _ _ _ _ => rfl⟩
theorem ipPart_proto : IpPart .ipDumpproto textIpProto := ⟨fun _ => rfl, fun _ _ _ _ _ => rfl⟩
theorem ipPart_addr : IpPart .ipDumpaddr textIpAddr := ⟨fun _ => rfl, fun _ _ _ _ _ => rfl⟩
theorem ipPart_allPrec : IpPart .ipDumpPrec (textIpAll textIpTosPrec) := ⟨fun _ => rfl, fun _ _ _ _ _ => rfl⟩
theorem ipPart_allDscp : IpPart .ipDumpDscp (textIpAll textIpTosDscp) := ⟨fun _ => rfl, fun _ _ _ _ _ => rfl⟩

/-- In every state that differs from `s` in TXT, RES and STATUS alone the operation appends `p`. -/
def Appends (s : State) (i : Instr) (p : Text) : Prop :=
  ∀ (w : Text) (r : BitVec 64) (st : BitVec 8), exec i { s with txt := w, res := r, status := st }
    = .next { s with txt := w ++ p, res := BitVec.ofNat 64 p.length, status := 0 }

namespace IpPart

variable {i : Instr} {f : State → Nat → Except Reason Text} {s : State} {b : Nat} {p : Text}

theorem appends (h : IpPart i f) (hv : s.vIp.v = true) (hb : s.vIp.base.toNat = b) (hp : f s b = .ok p) :
    Appends s i p := by
  intro w r st
  rw [h.run]
  exact finishText_ok ((requireView_bind_present hv hb _).trans ((h.frame s w r st b).trans hp))

theorem exec_eq (h : IpPart i f) (hv : s.vIp.v = true) (hb : s.vIp.base.toNat = b) (hp : f s b = .ok p) :
    exec i s = .next { s with txt := s.txt ++ p, res := BitVec.ofNat 64 p.length, status := 0 } :=
  h.appends hv hb hp s.txt s.res s.status

/-- The text in any form. -/
theorem exec_appends (h : IpPart i f) (hv : s.vIp.v = true) (hb : s.vIp.base.toNat = b) {q : Text} (hp : f s b = .ok p)
    (hq : p = q) :
    ∃ t, t = q ∧ exec i s = .next { s with txt := s.txt ++ t, res := BitVec.ofNat 64 t.length, status := 0 } :=
  ⟨q, rfl, h.exec_eq hv hb (hq ▸ hp)⟩

end IpPart

/-- Operations that append their texts in whatever state the ones before them leave, append them one after the other. -/
theorem execAll_appends {s : State} {is : List Instr} {ps : List Text} (h : List.Forall₂ (Appends s) is ps) (w : Text)
    (r : BitVec 64) (st : BitVec 8) :
    ∃ r' st', execAll is { s with txt := w, res := r, status := st }
      = .next { s with txt := w ++ ps.flatten, res := r', status := st' } := by
  induction h generalizing w r st with
  | nil => exact ⟨r, st, by rw [execAll, List.flatten_nil, List.append_nil]⟩
  | @cons i p is ps hip _ ih =>
    rw [execAll, hip w r st, List.flatten_cons, ← List.append_assoc]
    exact ih (w ++ p) _ _

/-- The whole dump is its six parts one after the other (44_text_dump.md R233). -/
theorem textIpAll_ok {tos : State → Nat → Except Reason Text} {s : State} {b : Nat}
    {ver hl t ff proto addr : Text} (h1 : textIpVer s b = .ok ver) (h2 : textIpHl s b = .ok hl) (h3 : tos s b = .ok t)
    (h4 : textIpFf s b = .ok ff) (h5 : textIpProto s b = .ok proto) (h6 : textIpAddr s b = .ok addr) :
    textIpAll tos s b = .ok [ver, hl, t, ff, proto, addr].flatten := by
  rw [textIpAll, bind_ok h1, bind_ok h2, bind_ok h3, bind_ok h4, bind_ok h5, bind_ok h6]
  simp

/-- IP.DUMP with the tos part `tos` against the six operations. -/
theorem ipDump_eq_parts {all part : Instr} {tos : State → Nat → Except Reason Text} (hall : IpPart all (textIpAll tos))
    (hpart : IpPart part tos) {s : State} (hv : s.vIp.v = true) (hlen : s.vIp.base.toNat + 20 ≤ s.len.toNat) {t : Text}
    (ht : tos s s.vIp.base.toNat = .ok t) :
    ∃ x u q, exec all s = .next x
      ∧ execAll [.ipDumpver, .ipDumphl, part, .ipDumpff, .ipDumpproto, .ipDumpaddr] s = .next u
      ∧ u.txt = s.txt ++ q
      ∧ x = { s with txt := s.txt ++ q, res := BitVec.ofNat 64 q.length, status := 0 } := by
  have hver := textIpVer_ok hlen
  have hhl := textIpHl_ok hlen
  have hff := textIpFf_ok hlen rfl
  have hproto := textIpProto_ok hlen
  have haddr := textIpAddr_ok hlen
  obtain ⟨r, st, hparts⟩ := execAll_appends (.cons (ipPart_ver.appends hv rfl hver) (.cons (ipPart_hl.appends hv rfl hhl)
    (.cons (hpart.appends hv rfl ht) (.cons (ipPart_ff.appends hv rfl hff) (.cons (ipPart_proto.appends hv rfl hproto)
      (.cons (ipPart_addr.appends hv rfl haddr) .nil)))))) s.txt s.res s.status
  exact ⟨_, _, _, hall.exec_eq hv rfl (textIpAll_ok hver hhl ht hff hproto haddr), hparts, rfl, rfl⟩

/-- The two tos lines part at the word after the raw byte. -/
theorem tosLines_ne (t p d : Text) :
    line (asciiText Config.fmtIpTos ++ t ++ chars [' ', 'p', 'r', 'e', 'c', 'e', 'd', 'e', 'n', 'c', 'e', ' '] ++ p)
      ≠ line (asciiText Config.fmtIpTos ++ t ++ chars [' ', 'd', 's', 'c', 'p', ' '] ++ d) := by
  intro h
  simp only [line, List.append_assoc, List.append_cancel_left_eq] at h
  have hletter : some 0x70#8 = some 0x64#8 := congrArg (·[1]?) h
  exact absurd hletter (by decide)

/-! ## The dumps of an ICMP message (44_text_dump.md R234, R236) -/

section

variable {s : State} {m : Nat} {f : Nat → Nat → Except Reason Text}

/-- Both dumps of an echo message read the identifier and the sequence number first. -/
theorem echoHeader_bind_ok (h : m + 8 ≤ s.len.toNat) :
    (memRead s (m + 4) 2 >>= fun id => memRead s (m + 6) 2 >>= fun seq => f id seq)
      = f ((s.readByte (m + 4)).toNat * 256 + (s.readByte (m + 5)).toNat)
          ((s.readByte (m + 6)).toNat * 256 + (s.readByte (m + 7)).toNat) := by
  rw [bind_ok (memRead_two (by omega)), bind_ok (memRead_two (by omega))]

theorem echoHeader_bind_short (h : s.len.toNat < m + 8) :
    (memRead s (m + 4) 2 >>= fun id => memRead s (m + 6) 2 >>= fun seq => f id seq) = .error .bufferTooShort := by
  by_cases hid : m + 6 ≤ s.len.toNat
  · rw [bind_ok (memRead_two hid)]
    exact bind_error (memRead_short s (m + 6) 2 (by omega)) _
  · exact bind_error (memRead_short s (m + 4) 2 (by omega)) _

end

section

variable {s : State} {m t : Nat}

theorem textIcmpEchoSummary_ok (h : m + 8 ≤ s.len.toNat) :
    textIcmpEchoSummary s m t = .ok (line (chars ['i', 'c', 'm', 'p', ' '] ++ typeLabelOrUnknown t
      ++ chars [' ', 'i', 'd', '='] ++ dec ((s.readByte (m + 4)).toNat * 256 + (s.readByte (m + 5)).toNat)
      ++ chars [' ', 's', 'e', 'q', '='] ++ dec ((s.readByte (m + 6)).toNat * 256 + (s.readByte (m + 7)).toNat))) :=
  echoHeader_bind_ok h

theorem textIcmpCodeSummary_ok (h : m + 2 ≤ s.len.toNat) :
    textIcmpCodeSummary s m t = .ok (line (chars ['i', 'c', 'm', 'p', ' '] ++ typeLabelOrUnknown t
      ++ chars [' ', 'c', 'o', 'd', 'e', '=', '\''] ++ codeLabelOrUnknown t (s.readByte (m + 1)).toNat ++ chars ['\'']
      ++ inParens (prefixedHex2 (s.readByte (m + 1)).toNat))) :=
  bind_ok (memRead_byte h) _

theorem textIcmpCodeDetail_ok (h : m + 2 ≤ s.len.toNat) (cs : Nat) :
    textIcmpCodeDetail s m t cs = .ok (line (asciiText Config.fmtIcmpType ++ typeLabelOrUnknown t)
      ++ line (asciiText Config.fmtIcmpCode ++ codeLabelOrUnknown t (s.readByte (m + 1)).toNat
        ++ inParens (prefixedHex2 (s.readByte (m + 1)).toNat))
      ++ line (asciiText Config.fmtIcmpCsum ++ prefixedHex4 cs)) :=
  bind_ok (memRead_byte h) _

end

/-! ### The declared data of an echo message (43_icmp.md R198) -/

section

variable {s : State} {b hb tl : Nat} (hlen : b + 20 ≤ s.len.toNat) (hhb : hb = 4 * ((s.readByte b).toNat % 16))
  (htl : tl = (s.readByte (b + 2)).toNat * 256 + (s.readByte (b + 3)).toNat)

include hlen hhb htl

theorem echoDataLen_eq_ite :
    echoDataLen s b = if hb + 8 ≤ tl then .ok (tl - hb - 8) else .error .inconsistent := by
  rw [echoDataLen_eq, payloadSize_eq s b (by omega), ← hhb, ← htl]
  by_cases h : hb ≤ tl
  · rw [if_pos h, bind_ok rfl]
    exact if_congr (by omega) rfl rfl
  · rw [if_neg h, if_neg (by omega)]
    rfl

end

section

variable {s : State} {b m t cs hb tl : Nat} (hlen : b + 20 ≤ s.len.toNat) (hm : m + 8 ≤ s.len.toNat)
  (hhb : hb = 4 * ((s.readByte b).toNat % 16))
  (htl : tl = (s.readByte (b + 2)).toNat * 256 + (s.readByte (b + 3)).toNat)

include hlen hm hhb htl

theorem textIcmpEchoDetail_ok {n : Nat} (hn : tl = hb + 8 + n) (hdata : m + 8 + n ≤ s.len.toNat) :
    textIcmpEchoDetail s b m t cs = .ok (line (asciiText Config.fmtIcmpType ++ typeLabelOrUnknown t)
      ++ line (asciiText Config.fmtIcmpCsum ++ prefixedHex4 cs)
      ++ line (asciiText Config.fmtIcmpId ++ dec ((s.readByte (m + 4)).toNat * 256 + (s.readByte (m + 5)).toNat))
      ++ line (asciiText Config.fmtIcmpSeq ++ dec ((s.readByte (m + 6)).toNat * 256 + (s.readByte (m + 7)).toNat))
      ++ hexdump (s.readBytes (m + 8) n)) := by
  have hcount : echoDataLen s b = .ok n := by
    rw [echoDataLen_eq_ite hlen hhb htl, if_pos (by omega)]
    exact congrArg _ (by omega)
  have hread : memReadEach s (m + 8) n = .ok (s.readBytes (m + 8) n) := by
    rw [memReadEach_eq, if_pos (.inr hdata)]
  rw [textIcmpEchoDetail, echoHeader_bind_ok hm, bind_ok hcount, bind_ok hread]

theorem textIcmpEchoDetail_inconsistent (h : tl < hb + 8) :
    textIcmpEchoDetail s b m t cs = .error .inconsistent := by
  have hcount : echoDataLen s b = .error .inconsistent := by
    rw [echoDataLen_eq_ite hlen hhb htl, if_neg (by omega)]
  rw [textIcmpEchoDetail, echoHeader_bind_ok hm, bind_error hcount]

theorem textIcmpEchoDetail_dataShort (h : hb + 8 < tl) (hdata : s.len.toNat < m + (tl - hb)) :
    textIcmpEchoDetail s b m t cs = .error .bufferTooShort := by
  have hcount : echoDataLen s b = .ok (tl - hb - 8) := by
    rw [echoDataLen_eq_ite hlen hhb htl, if_pos (by omega)]
  have hread : memReadEach s (m + 8) (tl - hb - 8) = .error .bufferTooShort := by
    rw [memReadEach_eq, if_neg (by omega)]
  rw [textIcmpEchoDetail, echoHeader_bind_ok hm, bind_ok hcount, bind_error hread]

end

/-! ### The two operations: which text they give -/

section

variable {s : State} {m t : Nat} (hv : s.vIcmp.v = true) (hb : s.vIcmp.base.toNat = m) (hlen : m < s.len.toNat)
  (ht : t = (s.readByte m).toNat)

include hv hb hlen ht

theorem exec_icmpDumps_inside :
    exec .icmpDumps s = finishText s (if isEcho t then textIcmpEchoSummary s m t else textIcmpCodeSummary s m t) := by
  refine congrArg (finishText s) ((requireView_bind_present hv hb _).trans ?_)
  rw [bind_ok (memRead_byte hlen), ht]

theorem exec_icmpDumps_echo (he : t = 8 ∨ t = 0) :
    exec .icmpDumps s = finishText s (textIcmpEchoSummary s m t) := by
  rw [exec_icmpDumps_inside hv hb hlen ht, if_pos ((isEcho_eq_true t).mpr he)]

theorem exec_icmpDumps_code (h8 : t ≠ 8) (h0 : t ≠ 0) :
    exec .icmpDumps s = finishText s (textIcmpCodeSummary s m t) := by
  rw [exec_icmpDumps_inside hv hb hlen ht, (isEcho_eq_false t).mpr ⟨h8, h0⟩]
  rfl

variable {b : Nat} (hvip : s.vIp.v = true) (hbip : s.vIp.base.toNat = b)

include hvip hbip

omit ht in
theorem exec_icmpDumpd_headerShort (hshort : s.len.toNat < m + 4) :
    exec .icmpDumpd s = .next (s.fail .bufferTooShort) := by
  refine finishText_error ((requireView_bind_present hvip hbip _).trans ((requireView_bind_present hv hb _).trans ?_))
  rw [bind_ok (memRead_byte hlen)]
  exact bind_error (memRead_short s (m + 2) 2 hshort) _

omit hlen in
theorem exec_icmpDumpd_inside {cs : Nat} (hhdr : m + 4 ≤ s.len.toNat)
    (hcs : cs = (s.readByte (m + 2)).toNat * 256 + (s.readByte (m + 3)).toNat) :
    exec .icmpDumpd s
      = finishText s (if isEcho t then textIcmpEchoDetail s b m t cs else textIcmpCodeDetail s m t cs) := by
  refine congrArg (finishText s)
    ((requireView_bind_present hvip hbip _).trans ((requireView_bind_present hv hb _).trans ?_))
  rw [bind_ok (memRead_byte (by omega)), bind_ok (memRead_two hhdr), ht, hcs]

omit hlen in
theorem exec_icmpDumpd_echo (hhdr : m + 4 ≤ s.len.toNat) (he : t = 8 ∨ t = 0) :
    exec .icmpDumpd s = finishText s
      (textIcmpEchoDetail s b m t ((s.readByte (m + 2)).toNat * 256 + (s.readByte (m + 3)).toNat)) := by
  rw [exec_icmpDumpd_inside hv hb ht hvip hbip hhdr rfl, if_pos ((isEcho_eq_true t).mpr he)]

omit hlen in
theorem exec_icmpDumpd_code (hhdr : m + 4 ≤ s.len.toNat) (h8 : t ≠ 8) (h0 : t ≠ 0) :
    exec .icmpDumpd s = finishText s
      (textIcmpCodeDetail s m t ((s.readByte (m + 2)).toNat * 256 + (s.readByte (m + 3)).toNat)) := by
  rw [exec_icmpDumpd_inside hv hb ht hvip hbip hhdr rfl, (isEcho_eq_false t).mpr ⟨h8, h0⟩]
  rfl

end

end Sys2Proof.Machine

/-! ## The statements settled -/

namespace Sys2Proof.TextFamily
open Sys2Proof.Machine

/-- Settles O31: the digits of a value are its residues modulo 16. -/
theorem hexFormat : Obligations.HexFormat := by
  unfold Obligations.HexFormat
  refine ⟨fun v hv => ⟨v / 16 % 16, v % 16, rfl, by omega, by omega, by omega, rfl⟩, fun v hv =>
    ⟨v / 256 / 16 % 16, v / 256 % 16, v / 16 % 16, v % 16, rfl, by omega, by omega, by omega, by omega, by omega, rfl⟩,
    fun _ => hexDigit_toNat⟩

/-- Settles O32, by induction along the digits. -/
theorem decFormat : Obligations.DecFormat := by
  unfold Obligations.DecFormat
  refine fun v => ⟨dec_ne_nil v, dec_digits v, dec_value v, fun h => ?_⟩
  obtain rfl := dec_head_zero v h
  exact ⟨rfl, rfl⟩

/-- Settles O33. -/
theorem hexdumpLines : Obligations.HexdumpLines := by
  unfold Obligations.HexdumpLines
  refine ⟨rfl, fun a => ?_, fun a b => ?_, fun a b d => hexdump_pair a b, fun d rest h => hexdump_line h rest⟩
  · simp [hexdump, hexdumpFrom, line]
  · simp [hexdump, hexdumpFrom, line]

/-- Settles O35: a dump is a text computation, which answers a text or raises. -/
theorem dumpAllOrNothing : Obligations.DumpAllOrNothing := by
  unfold Obligations.DumpAllOrNothing
  intro i s hi
  obtain ⟨r, hr⟩ := exec_dumpOp hi s
  rw [hr]
  cases r with
  | ok p => exact .inl ⟨p, finishText_ok rfl⟩
  | error e => exact .inr ⟨e, finishText_error rfl⟩

/-- Settles O36. -/
theorem ethDumps : Obligations.EthDumps := by
  unfold Obligations.EthDumps
  intro s b et dst src hv hb hlen hdst hsrc het
  have hmacDst : mac (s.readBytes b 6) = dst := (mac_readBytes s b).trans hdst.symm
  have hmacSrc : mac (s.readBytes (b + 6) 6) = src := (mac_readBytes s (b + 6)).trans hsrc.symm
  rw [exec_ethDumps hv hb hlen, exec_ethDumpd hv hb hlen het, hmacDst, hmacSrc]
  refine ⟨finishText_appends rfl rfl, finishText_appends rfl ?_⟩
  simp only [line, inParens_prefixedHex4, List.append_assoc]

/-- Settles O37: each operation is a part of the IPv4 dump, with its text. -/
theorem ipDumpFirstParts : Obligations.IpDumpFirstParts := by
  unfold Obligations.IpDumpFirstParts
  rintro s b _ _ hv hb hlen rfl rfl
  refine ⟨ipPart_ver.exec_appends hv hb (textIpVer_ok hlen) rfl, ipPart_hl.exec_appends hv hb (textIpHl_ok hlen) ?_,
    ipPart_tosPrec.exec_appends hv hb (textIpTosPrec_ok hlen) ?_,
    ipPart_tosDscp.exec_appends hv hb (textIpTosDscp_ok hlen) ?_⟩
  · have hbytes : chars [' ', 'b', 'y', 't', 'e', 's', ')'] = chars [' ', 'b', 'y', 't', 'e', 's'] ++ chars [')'] := rfl
    simp only [line, inParens, hbytes, List.append_assoc]
  · simp only [line, prefixedHex2, List.append_assoc]
  · simp only [line, prefixedHex2, List.append_assoc]

/-- Settles O38: the protocol's name is the model's table of names. -/
theorem ipDumpLastParts : Obligations.IpDumpLastParts := by
  unfold Obligations.IpDumpLastParts
  rintro s b ff _ name hv hb hlen hff rfl hname
  have hproto : protoName (s.readByte (b + 9)).toNat = name := hname.symm
  refine ⟨ipPart_ff.exec_appends hv hb (textIpFf_ok hlen hff) ?_,
    ipPart_proto.exec_appends hv hb (textIpProto_ok hlen) ?_, ipPart_addr.exec_appends hv hb (textIpAddr_ok hlen) ?_⟩
  · simp only [line, prefixedHex2, List.append_assoc]
  · simp only [line, hproto, inParens_prefixedHex2, List.append_assoc]
  · simp only [line, ipaddr_readBytes, List.append_assoc]

/-- Settles O39, for each of the two forms of the tos line. -/
theorem ipDumpIsItsParts : Obligations.IpDumpIsItsParts := by
  unfold Obligations.IpDumpIsItsParts
  intro s hv hlen
  simp only [List.forall_mem_cons, List.not_mem_nil, false_implies, implies_true, and_true]
  exact ⟨ipDump_eq_parts ipPart_allPrec ipPart_tosPrec hv hlen (textIpTosPrec_ok hlen),
    ipDump_eq_parts ipPart_allDscp ipPart_tosDscp hv hlen (textIpTosDscp_ok hlen)⟩

/-- Settles O40: what TXT held before is the same, and the two lines are not. -/
theorem tosDumpsDiffer : Obligations.TosDumpsDiffer := by
  unfold Obligations.TosDumpsDiffer
  intro s hv hlen
  exact ⟨_, _, ipPart_tosPrec.exec_eq hv rfl (textIpTosPrec_ok hlen), ipPart_tosDscp.exec_eq hv rfl (textIpTosDscp_ok hlen),
    rfl, rfl, fun h => tosLines_ne _ _ _ (List.append_cancel_left h)⟩

/-- Settles O41: one clause per text, and one per byte of it outside the buffer. -/
theorem icmpDumps : Obligations.IcmpDumps := by
  unfold Obligations.IcmpDumps
  intro s m t hv hb hlen ht
  refine ⟨fun he hecho => ?_, fun he hshort => ?_, fun h8 h0 hcode => ?_, fun h8 h0 hshort => ?_⟩
  · rw [exec_icmpDumps_echo hv hb hlen ht he]
    exact finishText_appends (textIcmpEchoSummary_ok hecho) rfl
  · rw [exec_icmpDumps_echo hv hb hlen ht he]
    exact finishText_error (echoHeader_bind_short hshort)
  · rw [exec_icmpDumps_code hv hb hlen ht h8 h0]
    refine finishText_appends (textIcmpCodeSummary_ok hcode) ?_
    have hquote : chars ['\'', ' ', '(', '0', 'x'] = chars ['\''] ++ chars [' ', '(', '0', 'x'] := rfl
    simp only [line, inParens_prefixedHex2, hquote, List.append_assoc]
  · rw [exec_icmpDumps_code hv hb hlen ht h8 h0]
    exact finishText_error (bind_error (memRead_short s (m + 1) 1 hshort) _)

/-- Settles O42: the data bytes are those of the declared length. -/
theorem icmpDumpdEcho : Obligations.IcmpDumpdEcho := by
  unfold Obligations.IcmpDumpdEcho
  intro s b m t hb tl n d hvip hbip hlen hv hbase hm ht he hhb htl hn hdata hd
  rw [exec_icmpDumpd_echo hv hbase ht hvip hbip (by omega) he]
  refine finishText_appends (textIcmpEchoDetail_ok hlen hm hhb htl hn hdata) ?_
  have hbytes : s.readBytes (m + 8) n = d := (State.readBytes_eq_map s (m + 8) n).trans hd.symm
  simp only [line, prefixedHex4, hbytes, List.append_assoc]

/-- Settles O43. -/
theorem icmpDumpdOther : Obligations.IcmpDumpdOther := by
  unfold Obligations.IcmpDumpdOther
  rintro s m t _ hvip hv hbase hm ht h8 h0 rfl
  rw [exec_icmpDumpd_code hv hbase ht hvip rfl hm h8 h0]
  refine finishText_appends (textIcmpCodeDetail_ok (by omega) _) ?_
  simp only [line, inParens_prefixedHex2, prefixedHex4, List.append_assoc]

/-- Settles O44: the header's bytes, then the declared sizes, then the data's bytes. -/
theorem icmpDumpdFails : Obligations.IcmpDumpdFails := by
  unfold Obligations.IcmpDumpdFails
  intro s b m t hb tl hvip hbip hlen hv hbase hm ht hhb htl
  refine ⟨exec_icmpDumpd_headerShort hv hbase hm hvip hbip, fun he hshort => ?_, fun he hecho hsmall => ?_,
    fun he hecho hlarge hdata => ?_⟩
  · by_cases hhdr : m + 4 ≤ s.len.toNat
    · rw [exec_icmpDumpd_echo hv hbase ht hvip hbip hhdr he]
      exact finishText_error (echoHeader_bind_short hshort)
    · exact exec_icmpDumpd_headerShort hv hbase hm hvip hbip (Nat.not_le.mp hhdr)
  · rw [exec_icmpDumpd_echo hv hbase ht hvip hbip (by omega) he]
    exact finishText_error (textIcmpEchoDetail_inconsistent hlen hecho hhb htl hsmall)
  · rw [exec_icmpDumpd_echo hv hbase ht hvip hbip (by omega) he]
    exact finishText_error (textIcmpEchoDetail_dataShort hlen hecho hhb htl hlarge hdata)

end Sys2Proof.TextFamily

/-! # The exceptions family: how an operation ends

The proof of O52. That an operation answers a next state at all is `exec_total`, one case per way to end. What that state
can be is the inversion lemma `ExecEffect.of_exec` of the state family, whose only effect that is no success is the failure. -/

namespace Sys2Proof.Machine

/-! ## Every operation ends (60_exceptions.md R260) -/

/-- The guard is IP.INIT's own: every other operation ends with `finish`, `finishValue` or `finishText`. -/
theorem exec_total {i : Instr} {s : State} (h : ¬ (i = .ipInit ∧ s.tmplv = true)) : ∃ t, exec i s = .next t := by
  by_cases hdump : i ∈ dumpOps
  · obtain ⟨r, hr⟩ := exec_dumpOp hdump s
    rw [hr]
    exact finishText_total s r
  · cases i with
    | ipInit =>
      have hfirst : s.tmplv = false := by simpa using h
      exact ⟨_, exec_ipInit_first hfirst⟩
    | ipNextid => exact ⟨_, exec_ipNextid s⟩
    | ethParse | ipParse | ipSetaddr | ipTmplcopy | icmpEcholoc => exact finish_total s _
    | n2h16 | h2n16 | n2h32 | h2n32 => exact finishValue_total s (.ok _)
    | ethGetDst | ethGetSrc | ethGetTyperaw | ethGetType | ipIsv4 | ipIsv6 | ipPayoff | ipPaysz | ipGetVer | ipGetIhl
    | ipGetTos | ipGetPrec | ipGetDscp | ipGetTotlen | ipGetId | ipGetFlagsfrag | ipGetFlags | ipGetFrag | ipGetTtl
    | ipGetProto | ipGetCsum | ipGetSrc | ipGetDst | icmpGetType | icmpGetCode | icmpGetCsum | icmpTypelbl | icmpCodelbl
    | icmpIsecho | icmpClass | icmpGetid | icmpGetseq => exact finishValue_total s _
    | ethDumps | ethDumpd | ipDumpPrec | ipDumpDscp | ipDumpver | ipDumphl | ipDumptosPrec | ipDumptosDscp | ipDumpff
    | ipDumpproto | ipDumpaddr | icmpDumps | icmpDumpd => simp [dumpOps] at hdump

/-! ## The two ways to end (60_exceptions.md R261 to R263) -/

theorem Reason.code_bounds (r : Reason) : 1 ≤ r.code ∧ r.code ≤ 9 := by
  cases r <;> decide

/-- A next state is a success, with STATUS 0x00, or the state before with the STATUS of a reason. -/
theorem ExecEffect.succeeded_or_failed {s t : State} {i : Instr} (h : ExecEffect s i t) :
    t.status = successStatus ∨ ∃ r, t = s.fail r := by
  cases h with
  | failed _ r => exact .inr ⟨r, rfl⟩
  | answered | dumped | ethParsed | templateSet | ipParsed | addressesSet | idDrawn | templateCopied | echoLocated =>
    exact .inl (State.succeed_status _ _)

end Sys2Proof.Machine

/-! ## The statement settled -/

namespace Sys2Proof.ExceptionsFamily
open Sys2Proof.Machine

/-- Settles O52: an operation answers a next state, and that is a success or a failure for one of the nine reasons. -/
theorem everyOperationEnds : Obligations.EveryOperationEnds := by
  unfold Obligations.EveryOperationEnds
  intro i s h
  obtain ⟨t, ht⟩ := exec_total h
  refine ⟨t, ht, ?_⟩
  obtain hok | ⟨r, rfl⟩ := (ExecEffect.of_exec ht).succeeded_or_failed
  · exact .inl hok
  · obtain ⟨hlow, hhigh⟩ := r.code_bounds
    exact .inr ⟨r.code, hlow, hhigh, rfl⟩

end Sys2Proof.ExceptionsFamily

/-! # The reset and hazards family: unspecified state, IP.INIT at most once, the reset event

The proofs of O57, O58 and O50. For O57 every read of the model is a function of what is visible (`State.SameVisible`), so in
two agreeing states an operation computes the same result from the same guards (`exec_agree`), and what it then writes keeps
the states agreeing. For O58 the discipline `initOnce` is itself the invariant: TMPLV follows the events as `initOnce` counts
them, and nothing but a second IP.INIT faults (`perform_tracked`). -/

namespace Sys2Proof.Machine

/-! ## Views that agree (10_state.md R35) -/

namespace View.agrees

@[refl] theorem refl (w : View) : w.agrees w := ⟨rfl, fun _ => rfl⟩

theorem dropped (k l : Nat) : (View.dropped k).agrees (View.dropped l) := ⟨rfl, fun hv => Bool.noConfusion hv⟩

/-- A base is read of an established view only. -/
theorem requireView_eq {x y : View} (h : x.agrees y) : requireView x = requireView y := by
  obtain ⟨hv, hbase⟩ := h
  cases hx : x.v with
  | false => rw [requireView_invalid x hx, requireView_invalid y (hv.symm.trans hx)]
  | true => rw [requireView, requireView, ← hv, hbase hx]

end View.agrees

/-! ## What an operation computes is the same in agreeing states -/

/-- A sequence computes the same when its first part does and, from each answer of it, the rest does. -/
theorem bind_eq_bind {α β : Type} {x y : Except Reason α} {f g : α → Except Reason β} (hx : x = y)
    (hf : ∀ a, f a = g a) : (x >>= f) = (y >>= g) :=
  congrArg₂ (· >>= ·) hx (funext hf)

namespace State.SameVisible

section

variable {s t : State} (h : s.SameVisible t)

include h

/-! ### Checked reads: BUF below LEN alone (20_memory.md R64) -/

theorem memRead_eq (a n : Nat) : memRead s a n = memRead t a n := by
  rw [memRead, memRead, ← h.len]
  split
  · rename_i hlen
    rw [State.readBE_congr s t a n fun x _ hx => h.bytes x (by omega)]
  · rfl

theorem readBytes_eq {a n : Nat} (hlen : a + n ≤ s.len.toNat) : s.readBytes a n = t.readBytes a n :=
  State.readBytes_congr s t a n fun x _ hx => h.bytes x (by omega)

theorem memReadBytes_eq (a n : Nat) : memReadBytes s a n = memReadBytes t a n := by
  rw [memReadBytes, memReadBytes, ← h.len]
  split
  · rw [h.readBytes_eq ‹_›]
  · rfl

theorem memReadEach_eq (a n : Nat) : memReadEach s a n = memReadEach t a n := by
  induction n generalizing a with
  | zero => rfl
  | succ n ih => exact bind_eq_bind (h.memRead_eq a 1) fun _ => bind_eq_bind (ih (a + 1)) fun _ => rfl

theorem memReadHost16_eq (a : Nat) : memReadHost16 s a = memReadHost16 t a := by
  rw [memReadHost16, memReadHost16, ← h.len]
  split
  · rw [h.bytes a (by omega), h.bytes (a + 1) (by omega)]
  · rfl

theorem requireBuf_eq : requireBuf s = requireBuf t := by
  rw [requireBuf, requireBuf, h.bufv]

theorem available_eq (a : Nat) : available s a = available t a := by
  rw [available, available, h.len]

/-! ### Header helpers and fields -/

theorem ipVer_eq (b : Nat) : ipVer s b = ipVer t b :=
  bind_eq_bind (h.memRead_eq b 1) fun _ => rfl

theorem ipIhl_eq (b : Nat) : ipIhl s b = ipIhl t b :=
  bind_eq_bind (h.memRead_eq b 1) fun _ => rfl

theorem ipHdrBytes_eq (b : Nat) : ipHdrBytes s b = ipHdrBytes t b :=
  bind_eq_bind (h.ipIhl_eq b) fun _ => rfl

theorem ipProto_eq (b : Nat) : ipProto s b = ipProto t b :=
  h.memRead_eq (b + 9) 1

theorem payloadSize_eq (b : Nat) : payloadSize s b = payloadSize t b :=
  bind_eq_bind (h.memRead_eq (b + 2) 2) fun _ => bind_eq_bind (h.ipHdrBytes_eq b) fun _ => rfl

theorem echoDataLen_eq (b : Nat) : echoDataLen s b = echoDataLen t b :=
  bind_eq_bind (h.payloadSize_eq b) fun _ => rfl

theorem ipField_eq (k n : Nat) : ipField s k n = ipField t k n :=
  bind_eq_bind h.vIp.requireView_eq fun b => h.memRead_eq (b + k) n

theorem icmpField_eq (k n : Nat) : icmpField s k n = icmpField t k n :=
  bind_eq_bind h.vIcmp.requireView_eq fun b => h.memRead_eq (b + k) n

/-! ### The texts of the dump operations -/

theorem textIpVer_eq (b : Nat) : textIpVer s b = textIpVer t b :=
  bind_eq_bind (h.ipVer_eq b) fun _ => rfl

theorem textIpHl_eq (b : Nat) : textIpHl s b = textIpHl t b :=
  bind_eq_bind (h.ipIhl_eq b) fun _ => rfl

theorem textIpTosPrec_eq (b : Nat) : textIpTosPrec s b = textIpTosPrec t b :=
  bind_eq_bind (h.memRead_eq (b + 1) 1) fun _ => rfl

theorem textIpTosDscp_eq (b : Nat) : textIpTosDscp s b = textIpTosDscp t b :=
  bind_eq_bind (h.memRead_eq (b + 1) 1) fun _ => rfl

theorem textIpFf_eq (b : Nat) : textIpFf s b = textIpFf t b :=
  bind_eq_bind (h.memRead_eq (b + 6) 2) fun _ => rfl

theorem textIpProto_eq (b : Nat) : textIpProto s b = textIpProto t b :=
  bind_eq_bind (h.ipProto_eq b) fun _ => rfl

theorem textIpAddr_eq (b : Nat) : textIpAddr s b = textIpAddr t b :=
  bind_eq_bind (h.memReadBytes_eq (b + 12) 4) fun _ => bind_eq_bind (h.memReadBytes_eq (b + 16) 4) fun _ => rfl

theorem textIpAll_eq {tos : State → Nat → Except Reason Text} {b : Nat} (htos : tos s b = tos t b) :
    textIpAll tos s b = textIpAll tos t b :=
  bind_eq_bind (h.textIpVer_eq b) fun _ => bind_eq_bind (h.textIpHl_eq b) fun _ => bind_eq_bind htos fun _ =>
    bind_eq_bind (h.textIpFf_eq b) fun _ => bind_eq_bind (h.textIpProto_eq b) fun _ =>
      bind_eq_bind (h.textIpAddr_eq b) fun _ => rfl

theorem textIcmpEchoSummary_eq (m k : Nat) : textIcmpEchoSummary s m k = textIcmpEchoSummary t m k :=
  bind_eq_bind (h.memRead_eq (m + 4) 2) fun _ => bind_eq_bind (h.memRead_eq (m + 6) 2) fun _ => rfl

theorem textIcmpCodeSummary_eq (m k : Nat) : textIcmpCodeSummary s m k = textIcmpCodeSummary t m k :=
  bind_eq_bind (h.memRead_eq (m + 1) 1) fun _ => rfl

theorem textIcmpEchoDetail_eq (ipb m k cs : Nat) : textIcmpEchoDetail s ipb m k cs = textIcmpEchoDetail t ipb m k cs :=
  bind_eq_bind (h.memRead_eq (m + 4) 2) fun _ => bind_eq_bind (h.memRead_eq (m + 6) 2) fun _ =>
    bind_eq_bind (h.echoDataLen_eq ipb) fun n => bind_eq_bind (h.memReadEach_eq (m + 8) n) fun _ => rfl

theorem textIcmpCodeDetail_eq (m k cs : Nat) : textIcmpCodeDetail s m k cs = textIcmpCodeDetail t m k cs :=
  bind_eq_bind (h.memRead_eq (m + 1) 1) fun _ => rfl

/-! ## What an operation writes keeps the states agreeing -/

theorem succeed (v : Nat) : (s.succeed v).SameVisible (t.succeed v) :=
  { h with res := rfl, status := rfl }

theorem fail (r : Reason) : (s.fail r).SameVisible (t.fail r) :=
  { h with status := rfl }

theorem appendText (p : Text) : State.SameVisible { s with txt := s.txt ++ p } { t with txt := t.txt ++ p } :=
  { h with txt := congrArg (· ++ p) h.txt }

theorem ethParsed (a : Nat) : State.SameVisible { s with vEth := View.at a } { t with vEth := View.at a } :=
  { h with vEth := .refl _ }

theorem echoLocated (a : Nat) : State.SameVisible { s with vEcho := View.at a } { t with vEcho := View.at a } :=
  { h with vEcho := .refl _ }

theorem idDrawn (q : BitVec 16) : State.SameVisible { s with seq := q } { t with seq := q } :=
  { h with seq := rfl }

theorem templateSet (p : Vector Byte 20) :
    State.SameVisible { s with tmpl := p, tmplv := true } { t with tmpl := p, tmplv := true } :=
  { h with tmplv := rfl, tmpl := fun _ => rfl }

theorem ipParsed (a hb cls : Nat) : (s.ipViews a hb cls).SameVisible (t.ipViews a hb cls) :=
  { h with
    vIp := .refl _
    vIcmp := by
      simp only [State.ipViews_vIcmp]
      split
      · exact .refl _
      · exact .dropped _ _
    vEcho := .dropped _ _ }

theorem writeByte (a : Nat) (b : Byte) : (s.writeByte a b).SameVisible (t.writeByte a b) :=
  { h with
    bytes := fun x hx => by
      rw [State.readByte_writeByte, State.readByte_writeByte, h.bytes x hx] }

end

theorem writeBytes {s t : State} (h : s.SameVisible t) (a : Nat) (bs : List Byte) :
    (s.writeBytes a bs).SameVisible (t.writeBytes a bs) := by
  induction bs generalizing s t a with
  | nil => exact h
  | cons b bs ih => exact ih (h.writeByte a b) (a + 1)

theorem setAddresses {s t : State} (h : s.SameVisible t) (a : Nat) : (s.setAddresses a).SameVisible (t.setAddresses a) := by
  rw [State.setAddresses, State.setAddresses, h.arg0, h.arg1]
  exact (h.writeBytes _ _).writeBytes _ _

end State.SameVisible

/-! ## How an operation ends in agreeing states -/

/-- Two computations of a next state and a result that raise the same reason, or give agreeing states and one result. -/
inductive ResultsAgree : Except Reason (State × Nat) → Except Reason (State × Nat) → Prop where
  | raised (e : Reason) : ResultsAgree (.error e) (.error e)
  | answered {u w : State} (h : u.SameVisible w) (v : Nat) : ResultsAgree (.ok (u, v)) (.ok (w, v))

theorem ResultsAgree.bind {α : Type} {x y : Except Reason α} {f g : α → Except Reason (State × Nat)} (hx : x = y)
    (hf : ∀ a, ResultsAgree (f a) (g a)) : ResultsAgree (x >>= f) (y >>= g) := by
  subst hx
  cases x with
  | error e => exact .raised e
  | ok a => exact hf a

namespace State.SameVisible

variable {s t : State}

theorem finish_agree (h : s.SameVisible t) {q r : Except Reason (State × Nat)} (hqr : ResultsAgree q r) :
    outcomesAgree (finish s q) (finish t r) := by
  cases hqr with
  | raised e => exact h.fail e
  | answered huw v => exact huw.succeed v

theorem finishValue_agree (h : s.SameVisible t) {q r : Except Reason Nat} (hqr : q = r) :
    outcomesAgree (finishValue s q) (finishValue t r) := by
  subst hqr
  cases q with
  | error e => exact h.fail e
  | ok v => exact h.succeed v

theorem finishText_agree (h : s.SameVisible t) {q r : Except Reason Text} (hqr : q = r) :
    outcomesAgree (finishText s q) (finishText t r) := by
  subst hqr
  cases q with
  | error e => exact h.fail e
  | ok p => exact (h.appendText p).succeed p.length

/-! ## The operations -/

theorem exec_convert16_agree (h : s.SameVisible t) {i : Instr} (hi : Converts16 i) :
    outcomesAgree (exec i s) (exec i t) := by
  rw [hi s, hi t, arg0Low16, arg0Low16, h.arg0]
  exact h.succeed _

theorem exec_convert32_agree (h : s.SameVisible t) {i : Instr} (hi : Converts32 i) :
    outcomesAgree (exec i s) (exec i t) := by
  rw [hi s, hi t, h.arg0]
  exact h.succeed _

theorem exec_ipInit_agree (h : s.SameVisible t) : outcomesAgree (exec .ipInit s) (exec .ipInit t) := by
  cases hs : s.tmplv with
  | false =>
    rw [exec_ipInit_first hs, exec_ipInit_first (h.tmplv.symm.trans hs)]
    exact (h.templateSet _).succeed 0
  | true =>
    rw [exec_ipInit_again hs, exec_ipInit_again (h.tmplv.symm.trans hs)]
    rfl

theorem exec_ipNextid_agree (h : s.SameVisible t) : outcomesAgree (exec .ipNextid s) (exec .ipNextid t) := by
  rw [exec_ipNextid, exec_ipNextid, h.seq]
  exact (h.idDrawn _).succeed _

theorem exec_rawRef_absent_agree (h : s.SameVisible t) {i : Instr} {a : Nat} (hi : i ∈ rawRefOps a)
    (hbuf : s.bufv = false) : outcomesAgree (exec i s) (exec i t) := by
  rw [exec_rawRef_absent hbuf hi, exec_rawRef_absent (h.bufv.symm.trans hbuf) hi]
  exact h.fail .invalidRef

/-- IP.TMPLCOPY reads TMPL with TMPLV = 1 only (42_ipv4.md R154). -/
theorem exec_ipTmplcopy_agree (h : s.SameVisible t) (a : Nat) :
    outcomesAgree (exec (.ipTmplcopy a) s) (exec (.ipTmplcopy a) t) := by
  cases hv : s.tmplv with
  | false =>
    rw [exec_ipTmplcopy_noTemplate hv, exec_ipTmplcopy_noTemplate (h.tmplv.symm.trans hv)]
    exact h.fail .invalidRef
  | true =>
    have hvt := h.tmplv.symm.trans hv
    cases hbuf : s.bufv with
    | false => exact h.exec_rawRef_absent_agree (a := a) (by simp [rawRefOps]) hbuf
    | true =>
      have hbuft := h.bufv.symm.trans hbuf
      by_cases hlen : a + 20 ≤ s.len.toNat
      · rw [exec_ipTmplcopy_complete hv hbuf hlen, exec_ipTmplcopy_complete hvt hbuft (h.len ▸ hlen), h.tmpl hv]
        exact (h.writeBytes a _).succeed 0
      · have hshort := Nat.not_le.mp hlen
        rw [exec_ipTmplcopy_short hv hbuf hshort, exec_ipTmplcopy_short hvt hbuft (h.len ▸ hshort)]
        exact h.fail .bufferTooShort

theorem exec_ipSetaddr_agree (h : s.SameVisible t) (a : Nat) :
    outcomesAgree (exec (.ipSetaddr a) s) (exec (.ipSetaddr a) t) := by
  cases hbuf : s.bufv with
  | false => exact h.exec_rawRef_absent_agree (a := a) (by simp [rawRefOps]) hbuf
  | true =>
    have hbuft := h.bufv.symm.trans hbuf
    by_cases hlen : a + 20 ≤ s.len.toNat
    · rw [exec_ipSetaddr_complete hbuf hlen, exec_ipSetaddr_complete hbuft (h.len ▸ hlen)]
      exact (h.setAddresses a).succeed 0
    · have hshort := Nat.not_le.mp hlen
      rw [exec_ipSetaddr_short hbuf hshort, exec_ipSetaddr_short hbuft (h.len ▸ hshort)]
      exact h.fail .bufferTooShort

theorem exec_ethParse_agree (h : s.SameVisible t) (a : Nat) :
    outcomesAgree (exec (.ethParse a) s) (exec (.ethParse a) t) :=
  h.finish_agree (.bind h.requireBuf_eq fun _ => .bind (by rw [h.available_eq a]) fun _ => .answered (h.ethParsed a) _)

theorem exec_ipParse_agree (h : s.SameVisible t) (a : Nat) :
    outcomesAgree (exec (.ipParse a) s) (exec (.ipParse a) t) := by
  have hav := h.available_eq a
  exact h.finish_agree (.bind h.requireBuf_eq fun _ => .bind (by rw [hav]) fun _ => .bind (h.ipVer_eq a) fun _ =>
    .bind rfl fun _ => .bind (h.ipHdrBytes_eq a) fun hb => .bind (h.ipProto_eq a) fun p => .bind (by rw [hav]) fun _ =>
      .answered (h.ipParsed a hb (protoClass p)) _)

theorem exec_icmpEcholoc_agree (h : s.SameVisible t) : outcomesAgree (exec .icmpEcholoc s) (exec .icmpEcholoc t) :=
  h.finish_agree (.bind h.vIcmp.requireView_eq fun b => .bind (h.memRead_eq b 1) fun _ => .bind rfl fun _ =>
    .answered (h.echoLocated _) _)

/-- Every operation, begun in agreeing states, ends in outcomes that agree. -/
theorem exec_agree (h : s.SameVisible t) (i : Instr) : outcomesAgree (exec i s) (exec i t) := by
  have hviewEth := h.vEth.requireView_eq
  have hviewIp := h.vIp.requireView_eq
  cases i with
  | ethParse a => exact h.exec_ethParse_agree a
  | ipInit => exact h.exec_ipInit_agree
  | ipParse a => exact h.exec_ipParse_agree a
  | ipSetaddr a => exact h.exec_ipSetaddr_agree a
  | ipNextid => exact h.exec_ipNextid_agree
  | ipTmplcopy a => exact h.exec_ipTmplcopy_agree a
  | icmpEcholoc => exact h.exec_icmpEcholoc_agree
  | n2h16 => exact h.exec_convert16_agree converts16_n2h16
  | h2n16 => exact h.exec_convert16_agree converts16_h2n16
  | n2h32 => exact h.exec_convert32_agree converts32_n2h32
  | h2n32 => exact h.exec_convert32_agree converts32_h2n32
  | ethGetDst => exact h.finishValue_agree (bind_eq_bind hviewEth fun b => h.memRead_eq b 6)
  | ethGetSrc => exact h.finishValue_agree (bind_eq_bind hviewEth fun b => h.memRead_eq (b + 6) 6)
  | ethGetTyperaw => exact h.finishValue_agree (bind_eq_bind hviewEth fun b => h.memReadHost16_eq (b + 12))
  | ethGetType => exact h.finishValue_agree (bind_eq_bind hviewEth fun b => h.memRead_eq (b + 12) 2)
  | ipIsv4 a | ipIsv6 a =>
    exact h.finishValue_agree (bind_eq_bind h.requireBuf_eq fun _ => bind_eq_bind (h.ipVer_eq a) fun _ => rfl)
  | ipPayoff => exact h.finishValue_agree (bind_eq_bind hviewIp h.ipHdrBytes_eq)
  | ipPaysz => exact h.finishValue_agree (bind_eq_bind hviewIp h.payloadSize_eq)
  | ipGetTos | ipGetTotlen | ipGetId | ipGetFlagsfrag | ipGetTtl | ipGetProto | ipGetCsum | ipGetSrc | ipGetDst =>
    exact h.finishValue_agree (h.ipField_eq _ _)
  | ipGetVer | ipGetIhl | ipGetPrec | ipGetDscp | ipGetFlags | ipGetFrag =>
    exact h.finishValue_agree (bind_eq_bind (h.ipField_eq _ _) fun _ => rfl)
  | icmpGetType | icmpGetCode | icmpGetCsum => exact h.finishValue_agree (h.icmpField_eq _ _)
  | icmpTypelbl | icmpIsecho => exact h.finishValue_agree (bind_eq_bind (h.icmpField_eq 0 1) fun _ => rfl)
  | icmpCodelbl =>
    exact h.finishValue_agree (bind_eq_bind (h.icmpField_eq 0 1) fun _ => bind_eq_bind rfl fun _ =>
      bind_eq_bind (h.icmpField_eq 1 1) fun _ => rfl)
  | icmpClass =>
    exact h.finishValue_agree (bind_eq_bind (h.icmpField_eq 0 1) fun _ =>
      if_congr Iff.rfl (bind_eq_bind (h.icmpField_eq 1 1) fun _ => rfl) rfl)
  | icmpGetid => exact h.finishValue_agree (bind_eq_bind h.vEcho.requireView_eq fun b => h.memRead_eq b 2)
  | icmpGetseq => exact h.finishValue_agree (bind_eq_bind h.vEcho.requireView_eq fun b => h.memRead_eq (b + 2) 2)
  | ethDumps =>
    exact h.finishText_agree (bind_eq_bind hviewEth fun b => bind_eq_bind (h.memReadBytes_eq b 6) fun _ =>
      bind_eq_bind (h.memReadBytes_eq (b + 6) 6) fun _ => rfl)
  | ethDumpd =>
    exact h.finishText_agree (bind_eq_bind hviewEth fun b => bind_eq_bind (h.memRead_eq (b + 12) 2) fun _ =>
      bind_eq_bind (h.memReadBytes_eq b 6) fun _ => bind_eq_bind (h.memReadBytes_eq (b + 6) 6) fun _ => rfl)
  | ipDumpPrec => exact h.finishText_agree (bind_eq_bind hviewIp fun b => h.textIpAll_eq (h.textIpTosPrec_eq b))
  | ipDumpDscp => exact h.finishText_agree (bind_eq_bind hviewIp fun b => h.textIpAll_eq (h.textIpTosDscp_eq b))
  | ipDumpver => exact h.finishText_agree (bind_eq_bind hviewIp h.textIpVer_eq)
  | ipDumphl => exact h.finishText_agree (bind_eq_bind hviewIp h.textIpHl_eq)
  | ipDumptosPrec => exact h.finishText_agree (bind_eq_bind hviewIp h.textIpTosPrec_eq)
  | ipDumptosDscp => exact h.finishText_agree (bind_eq_bind hviewIp h.textIpTosDscp_eq)
  | ipDumpff => exact h.finishText_agree (bind_eq_bind hviewIp h.textIpFf_eq)
  | ipDumpproto => exact h.finishText_agree (bind_eq_bind hviewIp h.textIpProto_eq)
  | ipDumpaddr => exact h.finishText_agree (bind_eq_bind hviewIp h.textIpAddr_eq)
  | icmpDumps =>
    exact h.finishText_agree (bind_eq_bind h.vIcmp.requireView_eq fun m => bind_eq_bind (h.memRead_eq m 1) fun k => by
      rw [h.textIcmpEchoSummary_eq m k, h.textIcmpCodeSummary_eq m k])
  | icmpDumpd =>
    exact h.finishText_agree (bind_eq_bind hviewIp fun ipb => bind_eq_bind h.vIcmp.requireView_eq fun m =>
      bind_eq_bind (h.memRead_eq m 1) fun k => bind_eq_bind (h.memRead_eq (m + 2) 2) fun cs => by
        rw [h.textIcmpEchoDetail_eq ipb m k cs, h.textIcmpCodeDetail_eq m k cs])

/-! ## The host's actions -/

/-- With all views dropped the states agree when every byte below the new LEN is listed. -/
theorem dropViews (h : s.SameVisible t) {m : Memory} {n : BitVec 16} (bv : Bool) (e e' : Nat)
    (hlisted : ∀ a, a < n.toNat → (Memory.lookup m a).isSome = true) :
    (State.dropViews { s with buf := m, bufEpoch := e, len := n, bufv := bv }).SameVisible
      (State.dropViews { t with buf := m, bufEpoch := e', len := n, bufv := bv }) :=
  { h with
    len := rfl
    bufv := rfl
    bytes := fun a ha => by
      obtain ⟨b, hb⟩ := Option.isSome_iff_exists.mp (hlisted a ha)
      simp only [State.readByte, State.dropViews_buf, hb]
    vEth := .dropped _ _
    vIp := .dropped _ _
    vIcmp := .dropped _ _
    vEcho := .dropped _ _ }

theorem hostLoad_agree (h : s.SameVisible t) (bytes : List Byte) : outcomesAgree (hostLoad bytes s) (hostLoad bytes t) := by
  by_cases hfits : bytes.length ≤ Config.bufSize
  · rw [hostLoad_fits s hfits, hostLoad_fits t hfits]
    refine h.dropViews true _ _ fun a ha => ?_
    rw [len_toNat_of_le_bufSize hfits] at ha
    rw [Memory.lookup_ofBytes, if_pos (Nat.zero_le a), Nat.sub_zero, List.getElem?_eq_getElem ha]
    rfl
  · rw [hostLoad_tooLong s hfits, hostLoad_tooLong t hfits]
    rfl

theorem hostRelease_agree (h : s.SameVisible t) : outcomesAgree (hostRelease s) (hostRelease t) :=
  h.dropViews false _ _ fun a ha => absurd ha (Nat.not_lt_zero a)

theorem hostReaches_eq (h : s.SameVisible t) (k : Nat) : hostReaches s k = hostReaches t k := by
  rw [hostReaches, hostReaches, h.bufv, h.len]

theorem hostWrite_agree (h : s.SameVisible t) (k : Nat) (b : Byte) : outcomesAgree (hostWrite k b s) (hostWrite k b t) := by
  have hsame := h.hostReaches_eq k
  by_cases hr : hostReaches s k = true
  · rw [hostWrite_available hr, hostWrite_available (hsame ▸ hr)]
    exact h.writeByte k b
  · rw [hostWrite_notAvailable hr, hostWrite_notAvailable (hsame ▸ hr)]
    rfl

/-- One and the same observation is recorded. -/
theorem observe (h : s.SameVisible t) {o o' : Observation} (ho : o = o') :
    State.SameVisible { s with seen := s.seen ++ [o] } { t with seen := t.seen ++ [o'] } :=
  { h with seen := by rw [h.seen, ho] }

/-- The host reads below LEN only (10_state.md R43). -/
theorem hostRead_agree (h : s.SameVisible t) (k : Nat) : outcomesAgree (hostRead k s) (hostRead k t) := by
  have hsame := h.hostReaches_eq k
  by_cases hr : hostReaches s k = true
  · rw [hostRead_available hr, hostRead_available (hsame ▸ hr)]
    obtain ⟨-, hk⟩ := (hostReaches_eq_true s k).mp hr
    exact h.observe (congrArg Observation.byte (h.bytes k hk))
  · rw [hostRead_notAvailable hr, hostRead_notAvailable (hsame ▸ hr)]
    rfl

theorem hostSetArg_agree (h : s.SameVisible t) (k : Fin 2) (w : BitVec 32) :
    outcomesAgree (hostSetArg k w s) (hostSetArg k w t) := by
  rw [hostSetArg, hostSetArg]
  split
  · exact { h with arg0 := rfl }
  · exact { h with arg1 := rfl }

theorem hostCmd_agree (h : s.SameVisible t) (w : BitVec 32) : outcomesAgree (hostCmd w s) (hostCmd w t) := by
  cases hd : decode w with
  | ok i =>
    rw [hostCmd_legal s hd, hostCmd_legal t hd]
    exact h.exec_agree i
  | error e =>
    rw [hostCmd_illegal s hd, hostCmd_illegal t hd]
    exact h.fail .illegalOp

theorem hostReadRes_agree (h : s.SameVisible t) : outcomesAgree (hostReadRes s) (hostReadRes t) :=
  h.observe (congrArg₂ Observation.result h.res h.status)

theorem hostReadTxt_agree (h : s.SameVisible t) (k : Nat) : outcomesAgree (hostReadTxt k s) (hostReadTxt k t) :=
  { h.observe (congrArg (fun p => Observation.text (p.take k)) h.txt) with txt := congrArg (List.drop k) h.txt }

/-- After reset the host's side alone is of the state before. -/
theorem hostReset_agree (h : s.SameVisible t) : outcomesAgree (hostReset s) (hostReset t) where
  arg0 := rfl
  arg1 := rfl
  res := rfl
  status := rfl
  len := rfl
  bufv := rfl
  bytes a ha := absurd ha (Nat.not_lt_zero a)
  seq := rfl
  tmplv := rfl
  tmpl _ := rfl
  vEth := .refl _
  vIp := .refl _
  vIcmp := .refl _
  vEcho := .refl _
  txt := rfl
  pending := h.pending
  seen := h.seen

/-- Every event, performed in agreeing states, ends in outcomes that agree. -/
theorem perform_agree (h : s.SameVisible t) (e : HostEvent) : outcomesAgree (perform e s) (perform e t) := by
  cases e with
  | load bytes => exact h.hostLoad_agree bytes
  | release => exact h.hostRelease_agree
  | write k b => exact h.hostWrite_agree k b
  | read k => exact h.hostRead_agree k
  | setArg k w => exact h.hostSetArg_agree k w
  | cmd w => exact h.hostCmd_agree w
  | readRes => exact h.hostReadRes_agree
  | readTxt k => exact h.hostReadTxt_agree k
  | reset => exact h.hostReset_agree

theorem eventTaken (h : s.SameVisible t) (es : List HostEvent) :
    State.SameVisible { s with pending := es } { t with pending := es } :=
  { h with pending := rfl }

/-- The queues agree, so the states idle together or perform the same event. -/
theorem step_agree (h : s.SameVisible t) : outcomesAgree (step s) (step t) := by
  have hqueue := h.pending
  cases hq : s.pending with
  | nil =>
    rw [step_idle s hq, step_idle t (hqueue.symm.trans hq)]
    exact h
  | cons e es =>
    rw [step_event s e es hq, step_event t e es (hqueue.symm.trans hq)]
    exact (h.eventTaken es).perform_agree e

end State.SameVisible

/-! ## What an event does to TMPLV, and what faults (42_ipv4.md R150; 70_reset_and_hazards.md R293) -/

/-- The command word of IP.INIT (30_encoding.md R106). -/
theorem decode_eq_ipInit (w : BitVec 32) : decode w = .ok .ipInit ↔ w = 0x20000000#32 := by
  have hword : encode .ipInit = 0x20000000#32 := rfl
  rw [decode_eq_ok, hword]
  exact ⟨fun hw => hw.2.symm, fun hw => ⟨rfl, hw.symm⟩⟩

/-- TMPLV after the event, where it was `v` before: IP.INIT sets it, reset clears it, nothing else concerns it. -/
def HostEvent.tmplvAfter (v : Bool) : HostEvent → Bool
  | .cmd w => if w = 0x20000000#32 then true else v
  | .reset => false
  | _ => v

/-- The discipline, event by event: no IP.INIT where one has been issued, and the rest of the queue from what the event
leaves. -/
theorem initOnce_cons (v : Bool) (e : HostEvent) (es : List HostEvent) :
    initOnce v (e :: es) = true ↔ ¬ (e = .cmd 0x20000000#32 ∧ v = true) ∧ initOnce (e.tmplvAfter v) es = true := by
  cases e with
  | cmd w =>
    rw [HostEvent.cmd.injEq]
    change (if w = 0x20000000#32 then !v && initOnce true es else initOnce v es) = true
      ↔ ¬ (w = 0x20000000#32 ∧ v = true) ∧ initOnce (if w = 0x20000000#32 then true else v) es = true
    by_cases hw : w = 0x20000000#32
    · rw [if_pos hw, if_pos hw, Bool.and_eq_true, Bool.not_eq_true', and_iff_right hw, Bool.not_eq_true]
    · rw [if_neg hw, if_neg hw, and_iff_right fun hagain => hw hagain.1]
  | load | release | write | read | setArg | readRes | readTxt | reset =>
    exact (and_iff_right (by simp)).symm

/-- IP.INIT with TMPLV = 1 is the only operation that faults. -/
theorem exec_fault {i : Instr} {s : State} {r : Fault} (hx : exec i s = .fault r) : i = .ipInit ∧ s.tmplv = true := by
  by_contra hno
  obtain ⟨t, ht⟩ := exec_total hno
  cases ht.symm.trans hx

theorem exec_next_tmplv {i : Instr} {s t : State} (hx : exec i s = .next t) :
    t.tmplv = if i = .ipInit then true else s.tmplv := by
  split
  · rename_i hi
    subst hi
    cases hv : s.tmplv with
    | false =>
      rw [exec_ipInit_first hv] at hx
      cases hx
      rfl
    | true =>
      rw [exec_ipInit_again hv] at hx
      cases hx
  · rename_i hi
    obtain ⟨-, -, -, -, -, -, -, htmpl, -⟩ := StateFamily.whoWritesWhat i s t hx
    exact (htmpl hi).2

/-- What the outcome of the event `e` in `s` says of TMPLV: a next state has it as `tmplvAfter` counts, with the queue as it
was, and a fault is a second IP.INIT. -/
def TemplateTracked (e : HostEvent) (s : State) : Host.Outcome State Fault Refusal → Prop
  | .next t => t.pending = s.pending ∧ t.tmplv = e.tmplvAfter s.tmplv
  | .fault _ => e = .cmd 0x20000000#32 ∧ s.tmplv = true
  | .refused _ => True

theorem hostCmd_tracked (w : BitVec 32) (s : State) : TemplateTracked (.cmd w) s (hostCmd w s) := by
  cases hd : decode w with
  | error e =>
    have hword : w ≠ 0x20000000#32 := fun hw => by cases hd.symm.trans ((decode_eq_ipInit w).mpr hw)
    rw [hostCmd_illegal s hd]
    exact ⟨rfl, (if_neg hword).symm⟩
  | ok i =>
    have hword : i = .ipInit ↔ w = 0x20000000#32 := by rw [← decode_eq_ipInit, hd, Except.ok.injEq]
    rw [hostCmd_legal s hd]
    cases hx : exec i s with
    | next t =>
      obtain ⟨-, -, -, -, hpending, -⟩ := StateFamily.whoWritesWhat i s t hx
      exact ⟨hpending, (exec_next_tmplv hx).trans (if_congr hword rfl rfl)⟩
    | fault r =>
      obtain ⟨hi, hv⟩ := exec_fault hx
      exact ⟨congrArg HostEvent.cmd (hword.mp hi), hv⟩
    | refused r => trivial

theorem perform_tracked (e : HostEvent) (s : State) : TemplateTracked e s (perform e s) := by
  cases e with
  | load bytes =>
    by_cases hfits : bytes.length ≤ Config.bufSize
    · rw [perform, hostLoad_fits s hfits]
      exact ⟨rfl, rfl⟩
    · rw [perform, hostLoad_tooLong s hfits]
      trivial
  | write k b =>
    by_cases hr : hostReaches s k = true
    · rw [perform, hostWrite_available hr]
      exact ⟨rfl, rfl⟩
    · rw [perform, hostWrite_notAvailable hr]
      trivial
  | read k =>
    by_cases hr : hostReaches s k = true
    · rw [perform, hostRead_available hr]
      exact ⟨rfl, rfl⟩
    · rw [perform, hostRead_notAvailable hr]
      trivial
  | setArg k w =>
    rw [perform, hostSetArg]
    split <;> exact ⟨rfl, rfl⟩
  | cmd w => exact hostCmd_tracked w s
  | release | readRes | readTxt | reset => exact ⟨rfl, rfl⟩

/-! ## The discipline as an invariant -/

/-- The host has issued no IP.INIT that is one too many, TMPLV telling whether one has been performed since reset. -/
def State.Disciplined (s : State) : Prop := initOnce s.tmplv s.pending = true

namespace State.Disciplined

variable {s t : State}

theorem step_ne_fault (h : s.Disciplined) (r : Fault) : step s ≠ .fault r := by
  intro hx
  cases hq : s.pending with
  | nil => cases (step_idle s hq).symm.trans hx
  | cons e es =>
    have hagain := perform_tracked e { s with pending := es }
    rw [← step_event s e es hq, hx] at hagain
    rw [Disciplined, hq, initOnce_cons] at h
    exact h.1 hagain

theorem of_step (h : s.Disciplined) (hx : step s = .next t) : t.Disciplined := by
  cases hq : s.pending with
  | nil =>
    cases (step_idle s hq).symm.trans hx
    exact h
  | cons e es =>
    have htracked := perform_tracked e { s with pending := es }
    rw [← step_event s e es hq, hx] at htracked
    obtain ⟨hpending, htmplv⟩ := htracked
    rw [Disciplined, hq, initOnce_cons] at h
    rw [Disciplined, hpending, htmplv]
    exact h.2

end State.Disciplined

/-- No run faults from a state with a property that every step keeps and that no faulting state has. -/
theorem run_ne_fault (p : State → Prop) (hkeep : ∀ s t, p s → step s = .next t → p t)
    (hsafe : ∀ s r, p s → step s ≠ .fault r) (k : Nat) (s : State) (h : p s) (r : Fault) :
    Host.Core.run Sys2Proof.core k s ≠ .fault r := by
  induction k generalizing s with
  | zero => exact fun hx => by cases (run_zero s).symm.trans hx
  | succ k ih =>
    cases hs : step s with
    | next t =>
      rw [run_next k s t hs]
      exact ih t (hkeep s t h hs)
    | fault q => exact absurd hs (hsafe s q h)
    | refused q =>
      rw [run_refused k s q hs]
      exact fun hx => by cases hx

end Sys2Proof.Machine

/-! ## The statements settled -/

namespace Sys2Proof.HazardFamily
open Sys2Proof.Machine

/-- Settles O57. -/
theorem unspecifiedNeverObservable : Obligations.UnspecifiedNeverObservable :=
  fun _ _ h => h.step_agree

/-- Settles O58: the discipline is the invariant of the run. -/
theorem initOnceNeverFaults : Obligations.InitOnceNeverFaults :=
  run_ne_fault State.Disciplined (fun _ _ h hx => h.of_step hx) (fun _ r h => h.step_ne_fault r)

/-- Settles O50. -/
theorem resetEvent : Obligations.ResetEvent :=
  fun s _ hq => ⟨_, step_event s _ _ hq, rfl, rfl, rfl, rfl, rfl, rfl, rfl, rfl, rfl, rfl, rfl, rfl, rfl, rfl, rfl⟩

end Sys2Proof.HazardFamily
